-- ==== Sys2Proof/Word.lean ====
section
/-!
DEFINITION. The Word, the Address and the byte, their plainest constants, and the shape in which the model
holds a finite map (spec/00_scope.md R18, R19; spec/10_state.md R25, R26).
-/

namespace Sys2Proof

/-- One byte of code, memory, call data or return data. -/
abbrev Byte := BitVec 8

/-- R25: "256-bit unsigned integer"; R8 fixes the width. -/
abbrev Word := BitVec 256

/-- R26: an `Addr` is a value below 2^160. -/
abbrev Addr := BitVec 160

/-- R18: `ByteSeq`, a finite sequence of bytes, first byte index 0. -/
abbrev Bytes := List Byte

/-- R19: `MIN = 2^255`, the Word whose signed view is the most negative value. -/
def minWord : Word := BitVec.ofNat 256 (2 ^ 255)

/-- R19: `MAX = 2^256 - 1`, all ones, signed view -1. -/
def maxWord : Word := BitVec.ofNat 256 (2 ^ 256 - 1)

/-- A finite map from naturals, held as a list of key and value pairs with strictly rising keys (the canonical
form `MapSorted`, log entry 9), so that equal maps are equal data. The operations are in Machine/Maps.lean. -/
abbrev SMap (α : Type) := List (Nat × α)

/-- The canonical form of an `SMap`: keys strictly rising. -/
abbrev MapSorted {α : Type} (m : SMap α) : Prop := m.Pairwise (fun a b => a.1 < b.1)

end Sys2Proof
end

