-- ==== Sys2Proof/Machine/Flags.lean ====
section
/-!
DEFINITION. Conditions. The machine has no flags (spec/41_compare_bitwise.md R155): a condition is an ordinary Word on
the stack, 1 or 0 when a comparison makes it, and any non-zero Word counts as true where JUMPI tests it.
-/

namespace Sys2Proof.Machine

/-- R141, R155: the comparisons push 1 or 0. -/
def conditionWord (b : Bool) : Word := if b then 1 else 0

/-- R155, R248: any non-zero Word is true. -/
def holdsWord (w : Word) : Bool := decide (w ≠ 0)

end Sys2Proof.Machine
end

