-- ==== Sys2Proof/Machine/Alu.lean ====
section
/-!
DEFINITION. The word arithmetic unit (spec/40_arithmetic.md, spec/41_compare_bitwise.md): pure functions of their
operands, "no side effects". Operands are converted to integers, the result is computed exactly and narrowed at the
end; `a` is the operand popped first (R119).
-/

namespace Sys2Proof.Machine

/-- R18: `word` of a natural: reduce modulo 2^256. -/
def natWord (n : Nat) : Word := BitVec.ofNat 256 n

/-- R19: `word(z) = z mod 2^256` for an integer z. -/
def intWord (z : Int) : Word := BitVec.ofInt 256 z

/-- R121. -/
def aluAdd (a b : Word) : Word := natWord (a.toNat + b.toNat)

/-- R122: the low 256 bits of the exact product. -/
def aluMul (a b : Word) : Word := natWord (a.toNat * b.toNat)

/-- R123. -/
def aluSub (a b : Word) : Word := intWord ((a.toNat : Int) - (b.toNat : Int))

/-- R124: unsigned floor division; divisor 0 gives 0. -/
def aluDiv (a b : Word) : Word := if b = 0 then 0 else natWord (a.toNat / b.toNat)

/-- R125: signed division, truncation toward zero; divisor 0 gives 0; MIN / -1 gives MIN. -/
def aluSdiv (a b : Word) : Word :=
  if b = 0 then 0
  else if a = minWord ∧ b = maxWord then minWord
  else
    let q : Int := (a.toInt.natAbs / b.toInt.natAbs : Nat)
    if (decide (a.toInt < 0)) != (decide (b.toInt < 0)) then intWord (-q) else intWord q

/-- R126: unsigned remainder; modulus 0 gives 0. -/
def aluMod (a b : Word) : Word := if b = 0 then 0 else natWord (a.toNat % b.toNat)

/-- R127: the remainder with the sign of the dividend; modulus 0 gives 0. -/
def aluSmod (a b : Word) : Word :=
  if b = 0 then 0
  else
    let r : Int := (a.toInt.natAbs % b.toInt.natAbs : Nat)
    if a.toInt < 0 then intWord (-r) else intWord r

/-- R128: the exact 257-bit sum reduced modulo n; n = 0 gives 0. -/
def aluAddmod (a b n : Word) : Word := if n = 0 then 0 else natWord ((a.toNat + b.toNat) % n.toNat)

/-- R129: the exact 512-bit product reduced modulo n; n = 0 gives 0. -/
def aluMulmod (a b n : Word) : Word := if n = 0 then 0 else natWord ((a.toNat * b.toNat) % n.toNat)

/-- The power of `base` to `e`, times `acc`, modulo 2^256, by squaring: one bit of `e` at each round, lowest first, at
most `rounds` of them. It stops when no bit is left. -/
def powLoop (rounds base e acc : Nat) : Nat :=
  match rounds, e with
  | 0, _ => acc
  | _ + 1, 0 => acc
  | r + 1, e' + 1 =>
    powLoop r (base * base % 2 ^ 256) ((e' + 1) / 2) (if (e' + 1) % 2 = 1 then acc * base % 2 ^ 256 else acc)

/-- R130: `a^b mod 2^256`, a the base; `0^0 = 1`. An exponent has 256 bits, so 256 rounds are enough. -/
def aluExp (a b : Word) : Word := natWord (powLoop 256 a.toNat b.toNat 1)

/-- R131: sign extension of x from its byte k (0 the least significant). -/
def aluSignextend (k x : Word) : Word :=
  if 31 ≤ k.toNat then x
  else
    let t := 8 * k.toNat + 7
    if x.getLsbD t then x ||| natWord (2 ^ 256 - 2 ^ (t + 1)) else x &&& natWord (2 ^ (t + 1) - 1)

/-- R141: unsigned. -/
def aluLt (a b : Word) : Word := conditionWord (decide (a.toNat < b.toNat))

/-- R142: unsigned. -/
def aluGt (a b : Word) : Word := conditionWord (decide (a.toNat > b.toNat))

/-- R143: signed. -/
def aluSlt (a b : Word) : Word := conditionWord (decide (a.toInt < b.toInt))

/-- R144: signed. -/
def aluSgt (a b : Word) : Word := conditionWord (decide (a.toInt > b.toInt))

/-- R145. -/
def aluEq (a b : Word) : Word := conditionWord (decide (a = b))

/-- R146. -/
def aluIszero (a : Word) : Word := conditionWord (decide (a = 0))

/-- R147. -/
def aluAnd (a b : Word) : Word := a &&& b

/-- R148. -/
def aluOr (a b : Word) : Word := a ||| b

/-- R149. -/
def aluXor (a b : Word) : Word := a ^^^ b

/-- R150: every one of the 256 bits inverted, `MAX - a`. -/
def aluNot (a : Word) : Word := ~~~a

/-- R151: the byte of x with big-endian index i; i >= 32 gives 0. -/
def aluByte (i x : Word) : Word :=
  if 32 ≤ i.toNat then 0 else natWord (x.toNat / 2 ^ (8 * (31 - i.toNat)) % 256)

/-- R152: n >= 256 gives 0. -/
def aluShl (n x : Word) : Word := if 256 ≤ n.toNat then 0 else natWord (x.toNat * 2 ^ n.toNat)

/-- R153: n >= 256 gives 0. -/
def aluShr (n x : Word) : Word := if 256 ≤ n.toNat then 0 else natWord (x.toNat / 2 ^ n.toNat)

/-- R154: floor division of the signed view; n >= 256 gives 0 or all ones by the sign of x. -/
def aluSar (n x : Word) : Word :=
  if 256 ≤ n.toNat then (if x.toNat < 2 ^ 255 then 0 else maxWord)
  else intWord (x.toInt.fdiv (2 ^ n.toNat))

end Sys2Proof.Machine
end

