-- ==== Sys2Proof/Syntax.lean ====
section
/-!
DEFINITION. The instructions: one constructor for each of the 139 rows of spec/opcode_table.json
(spec/30_encoding.md R104), in the table's order. Only PUSH1 to PUSH32 carry an operand, the immediate as the Word
it stands for (R102); every other operand comes from the stack (R100). The constructor of RETURN is `ret`.
-/

namespace Sys2Proof

/-- R104: the 139 instructions of the opcode map. -/
inductive Instr where
  /-- STOP (0x00, R242): halt with success and empty output -/
  | stop
  /-- ADD (0x01, R121): sum modulo 2^256 -/
  | add
  /-- MUL (0x02, R122): product modulo 2^256 -/
  | mul
  /-- SUB (0x03, R123): difference modulo 2^256 -/
  | sub
  /-- DIV (0x04, R124): unsigned quotient -/
  | div
  /-- SDIV (0x05, R125): signed quotient -/
  | sdiv
  /-- MOD (0x06, R126): unsigned remainder -/
  | mod
  /-- SMOD (0x07, R127): signed remainder -/
  | smod
  /-- ADDMOD (0x08, R128): exact sum reduced by the third operand -/
  | addmod
  /-- MULMOD (0x09, R129): exact product reduced by the third operand -/
  | mulmod
  /-- EXP (0x0a, R130): power modulo 2^256 -/
  | exp
  /-- SIGNEXTEND (0x0b, R131): sign extension from a byte -/
  | signextend
  /-- LT (0x10, R141): unsigned less than -/
  | lt
  /-- GT (0x11, R142): unsigned greater than -/
  | gt
  /-- SLT (0x12, R143): signed less than -/
  | slt
  /-- SGT (0x13, R144): signed greater than -/
  | sgt
  /-- EQ (0x14, R145): equality -/
  | eq
  /-- ISZERO (0x15, R146): test for zero -/
  | iszero
  /-- AND (0x16, R147): bitwise and -/
  | and
  /-- OR (0x17, R148): bitwise or -/
  | or
  /-- XOR (0x18, R149): bitwise exclusive or -/
  | xor
  /-- NOT (0x19, R150): bitwise complement -/
  | not
  /-- BYTE (0x1a, R151): byte extraction, index 0 most significant -/
  | byte
  /-- SHL (0x1b, R152): shift left -/
  | shl
  /-- SHR (0x1c, R153): logical shift right -/
  | shr
  /-- SAR (0x1d, R154): arithmetic shift right -/
  | sar
  /-- SHA3 (0x20, R239): hash of a memory region (alias KECCAK256) -/
  | sha3
  /-- ADDRESS (0x30, R256): the frame's address -/
  | address
  /-- BALANCE (0x31, R257): an account's balance -/
  | balance
  /-- ORIGIN (0x32, R258): tx.origin -/
  | origin
  /-- CALLER (0x33, R259): the frame's caller -/
  | caller
  /-- CALLVALUE (0x34, R260): the frame's value -/
  | callvalue
  /-- CALLDATALOAD (0x35, R261): 32 bytes of call data -/
  | calldataload
  /-- CALLDATASIZE (0x36, R262): length of the call data -/
  | calldatasize
  /-- CALLDATACOPY (0x37, R263): call data to memory -/
  | calldatacopy
  /-- CODESIZE (0x38, R264): length of the executing code -/
  | codesize
  /-- CODECOPY (0x39, R265): executing code to memory -/
  | codecopy
  /-- GASPRICE (0x3a, R266): tx.gasprice -/
  | gasprice
  /-- EXTCODESIZE (0x3b, R267): length of an account's code -/
  | extcodesize
  /-- EXTCODECOPY (0x3c, R268): an account's code to memory -/
  | extcodecopy
  /-- RETURNDATASIZE (0x3d, R269): length of the return data -/
  | returndatasize
  /-- RETURNDATACOPY (0x3e, R270): return data to memory -/
  | returndatacopy
  /-- EXTCODEHASH (0x3f, R271): hash of an account's code -/
  | extcodehash
  /-- COINBASE (0x41, R272): block.coinbase -/
  | coinbase
  /-- TIMESTAMP (0x42, R273): block.timestamp -/
  | timestamp
  /-- NUMBER (0x43, R274): block.number -/
  | number
  /-- DIFFICULTY (0x44, R275): block.difficulty -/
  | difficulty
  /-- GASLIMIT (0x45, R276): block.gaslimit -/
  | gaslimit
  /-- CHAINID (0x46, R277): block.chainid -/
  | chainid
  /-- SELFBALANCE (0x47, R278): balance of the frame's address -/
  | selfbalance
  /-- BASEFEE (0x48, R279): block.basefee -/
  | basefee
  /-- POP (0x50, R165): discard the top -/
  | pop
  /-- MLOAD (0x51, R235): load a Word from memory -/
  | mload
  /-- MSTORE (0x52, R236): store a Word to memory -/
  | mstore
  /-- MSTORE8 (0x53, R237): store a byte to memory -/
  | mstore8
  /-- SLOAD (0x54, R290): load from storage -/
  | sload
  /-- SSTORE (0x55, R291): store to storage -/
  | sstore
  /-- JUMP (0x56, R247): jump -/
  | jump
  /-- JUMPI (0x57, R248): conditional jump -/
  | jumpi
  /-- PC (0x58, R244): the program counter -/
  | pc
  /-- MSIZE (0x59, R238): the memory size -/
  | msize
  /-- JUMPDEST (0x5b, R243): a valid jump target; no effect -/
  | jumpdest
  /-- PUSH0 (0x5f, R167): push 0 -/
  | push0
  /-- PUSH1 (0x60, R168): push a 1-byte immediate -/
  | push1 (imm : Word)
  /-- PUSH2 (0x61, R169): push a 2-byte immediate -/
  | push2 (imm : Word)
  /-- PUSH3 (0x62, R170): push a 3-byte immediate -/
  | push3 (imm : Word)
  /-- PUSH4 (0x63, R171): push a 4-byte immediate -/
  | push4 (imm : Word)
  /-- PUSH5 (0x64, R172): push a 5-byte immediate -/
  | push5 (imm : Word)
  /-- PUSH6 (0x65, R173): push a 6-byte immediate -/
  | push6 (imm : Word)
  /-- PUSH7 (0x66, R174): push a 7-byte immediate -/
  | push7 (imm : Word)
  /-- PUSH8 (0x67, R175): push a 8-byte immediate -/
  | push8 (imm : Word)
  /-- PUSH9 (0x68, R176): push a 9-byte immediate -/
  | push9 (imm : Word)
  /-- PUSH10 (0x69, R177): push a 10-byte immediate -/
  | push10 (imm : Word)
  /-- PUSH11 (0x6a, R178): push a 11-byte immediate -/
  | push11 (imm : Word)
  /-- PUSH12 (0x6b, R179): push a 12-byte immediate -/
  | push12 (imm : Word)
  /-- PUSH13 (0x6c, R180): push a 13-byte immediate -/
  | push13 (imm : Word)
  /-- PUSH14 (0x6d, R181): push a 14-byte immediate -/
  | push14 (imm : Word)
  /-- PUSH15 (0x6e, R182): push a 15-byte immediate -/
  | push15 (imm : Word)
  /-- PUSH16 (0x6f, R183): push a 16-byte immediate -/
  | push16 (imm : Word)
  /-- PUSH17 (0x70, R184): push a 17-byte immediate -/
  | push17 (imm : Word)
  /-- PUSH18 (0x71, R185): push a 18-byte immediate -/
  | push18 (imm : Word)
  /-- PUSH19 (0x72, R186): push a 19-byte immediate -/
  | push19 (imm : Word)
  /-- PUSH20 (0x73, R187): push a 20-byte immediate -/
  | push20 (imm : Word)
  /-- PUSH21 (0x74, R188): push a 21-byte immediate -/
  | push21 (imm : Word)
  /-- PUSH22 (0x75, R189): push a 22-byte immediate -/
  | push22 (imm : Word)
  /-- PUSH23 (0x76, R190): push a 23-byte immediate -/
  | push23 (imm : Word)
  /-- PUSH24 (0x77, R191): push a 24-byte immediate -/
  | push24 (imm : Word)
  /-- PUSH25 (0x78, R192): push a 25-byte immediate -/
  | push25 (imm : Word)
  /-- PUSH26 (0x79, R193): push a 26-byte immediate -/
  | push26 (imm : Word)
  /-- PUSH27 (0x7a, R194): push a 27-byte immediate -/
  | push27 (imm : Word)
  /-- PUSH28 (0x7b, R195): push a 28-byte immediate -/
  | push28 (imm : Word)
  /-- PUSH29 (0x7c, R196): push a 29-byte immediate -/
  | push29 (imm : Word)
  /-- PUSH30 (0x7d, R197): push a 30-byte immediate -/
  | push30 (imm : Word)
  /-- PUSH31 (0x7e, R198): push a 31-byte immediate -/
  | push31 (imm : Word)
  /-- PUSH32 (0x7f, R199): push a 32-byte immediate -/
  | push32 (imm : Word)
  /-- DUP1 (0x80, R201): push a copy of x[1] -/
  | dup1
  /-- DUP2 (0x81, R202): push a copy of x[2] -/
  | dup2
  /-- DUP3 (0x82, R203): push a copy of x[3] -/
  | dup3
  /-- DUP4 (0x83, R204): push a copy of x[4] -/
  | dup4
  /-- DUP5 (0x84, R205): push a copy of x[5] -/
  | dup5
  /-- DUP6 (0x85, R206): push a copy of x[6] -/
  | dup6
  /-- DUP7 (0x86, R207): push a copy of x[7] -/
  | dup7
  /-- DUP8 (0x87, R208): push a copy of x[8] -/
  | dup8
  /-- DUP9 (0x88, R209): push a copy of x[9] -/
  | dup9
  /-- DUP10 (0x89, R210): push a copy of x[10] -/
  | dup10
  /-- DUP11 (0x8a, R211): push a copy of x[11] -/
  | dup11
  /-- DUP12 (0x8b, R212): push a copy of x[12] -/
  | dup12
  /-- DUP13 (0x8c, R213): push a copy of x[13] -/
  | dup13
  /-- DUP14 (0x8d, R214): push a copy of x[14] -/
  | dup14
  /-- DUP15 (0x8e, R215): push a copy of x[15] -/
  | dup15
  /-- DUP16 (0x8f, R216): push a copy of x[16] -/
  | dup16
  /-- SWAP1 (0x90, R218): exchange x[1] and x[2] -/
  | swap1
  /-- SWAP2 (0x91, R219): exchange x[1] and x[3] -/
  | swap2
  /-- SWAP3 (0x92, R220): exchange x[1] and x[4] -/
  | swap3
  /-- SWAP4 (0x93, R221): exchange x[1] and x[5] -/
  | swap4
  /-- SWAP5 (0x94, R222): exchange x[1] and x[6] -/
  | swap5
  /-- SWAP6 (0x95, R223): exchange x[1] and x[7] -/
  | swap6
  /-- SWAP7 (0x96, R224): exchange x[1] and x[8] -/
  | swap7
  /-- SWAP8 (0x97, R225): exchange x[1] and x[9] -/
  | swap8
  /-- SWAP9 (0x98, R226): exchange x[1] and x[10] -/
  | swap9
  /-- SWAP10 (0x99, R227): exchange x[1] and x[11] -/
  | swap10
  /-- SWAP11 (0x9a, R228): exchange x[1] and x[12] -/
  | swap11
  /-- SWAP12 (0x9b, R229): exchange x[1] and x[13] -/
  | swap12
  /-- SWAP13 (0x9c, R230): exchange x[1] and x[14] -/
  | swap13
  /-- SWAP14 (0x9d, R231): exchange x[1] and x[15] -/
  | swap14
  /-- SWAP15 (0x9e, R232): exchange x[1] and x[16] -/
  | swap15
  /-- SWAP16 (0x9f, R233): exchange x[1] and x[17] -/
  | swap16
  /-- LOG0 (0xa0, R293): append a log entry with 0 topics -/
  | log0
  /-- LOG1 (0xa1, R294): append a log entry with 1 topics -/
  | log1
  /-- LOG2 (0xa2, R295): append a log entry with 2 topics -/
  | log2
  /-- LOG3 (0xa3, R296): append a log entry with 3 topics -/
  | log3
  /-- LOG4 (0xa4, R297): append a log entry with 4 topics -/
  | log4
  /-- CREATE (0xf0, R321): create an account -/
  | create
  /-- CALL (0xf1, R318): call an account -/
  | call
  /-- RETURN (0xf3, R322): end the frame with output -/
  | ret
  /-- DELEGATECALL (0xf4, R319): call an account's code as the frame's own -/
  | delegatecall
  /-- STATICCALL (0xfa, R320): call an account in static mode -/
  | staticcall
  /-- REVERT (0xfd, R323): end the frame, discarding its mutations -/
  | revert
  /-- SELFDESTRUCT (0xff, R324): end the frame and mark its account for removal -/
  | selfdestruct
  deriving DecidableEq, Repr

end Sys2Proof
end

