-- ==== Sys2Proof/WellFormed.lean ====
section
/-!
DEFINITION. Which instruction terms stand for an instruction of the machine: the immediate of PUSHN is a value of N
bytes (spec/30_encoding.md R101, R102, R110: it "must fit in N bytes"). Nothing else can be ill-formed.
-/

namespace Sys2Proof

/-- `w` is a value of `n` bytes. -/
def fitsBytes (n : Nat) (w : Word) : Bool := decide (w.toNat < 256 ^ n)

/-- R110: the immediate of a PUSHN fits in N bytes. -/
def Instr.wf : Instr → Bool
  | .push1 imm => fitsBytes 1 imm
  | .push2 imm => fitsBytes 2 imm
  | .push3 imm => fitsBytes 3 imm
  | .push4 imm => fitsBytes 4 imm
  | .push5 imm => fitsBytes 5 imm
  | .push6 imm => fitsBytes 6 imm
  | .push7 imm => fitsBytes 7 imm
  | .push8 imm => fitsBytes 8 imm
  | .push9 imm => fitsBytes 9 imm
  | .push10 imm => fitsBytes 10 imm
  | .push11 imm => fitsBytes 11 imm
  | .push12 imm => fitsBytes 12 imm
  | .push13 imm => fitsBytes 13 imm
  | .push14 imm => fitsBytes 14 imm
  | .push15 imm => fitsBytes 15 imm
  | .push16 imm => fitsBytes 16 imm
  | .push17 imm => fitsBytes 17 imm
  | .push18 imm => fitsBytes 18 imm
  | .push19 imm => fitsBytes 19 imm
  | .push20 imm => fitsBytes 20 imm
  | .push21 imm => fitsBytes 21 imm
  | .push22 imm => fitsBytes 22 imm
  | .push23 imm => fitsBytes 23 imm
  | .push24 imm => fitsBytes 24 imm
  | .push25 imm => fitsBytes 25 imm
  | .push26 imm => fitsBytes 26 imm
  | .push27 imm => fitsBytes 27 imm
  | .push28 imm => fitsBytes 28 imm
  | .push29 imm => fitsBytes 29 imm
  | .push30 imm => fitsBytes 30 imm
  | .push31 imm => fitsBytes 31 imm
  | .push32 imm => fitsBytes 32 imm
  | .stop | .add | .mul | .sub | .div | .sdiv | .mod | .smod | .addmod
  | .mulmod | .exp | .signextend | .lt | .gt | .slt | .sgt | .eq | .iszero
  | .and | .or | .xor | .not | .byte | .shl | .shr | .sar | .sha3
  | .address | .balance | .origin | .caller | .callvalue | .calldataload | .calldatasize | .calldatacopy | .codesize
  | .codecopy | .gasprice | .extcodesize | .extcodecopy | .returndatasize | .returndatacopy | .extcodehash | .coinbase | .timestamp
  | .number | .difficulty | .gaslimit | .chainid | .selfbalance | .basefee | .pop | .mload | .mstore
  | .mstore8 | .sload | .sstore | .jump | .jumpi | .pc | .msize | .jumpdest | .push0
  | .dup1 | .dup2 | .dup3 | .dup4 | .dup5 | .dup6 | .dup7 | .dup8 | .dup9
  | .dup10 | .dup11 | .dup12 | .dup13 | .dup14 | .dup15 | .dup16 | .swap1 | .swap2
  | .swap3 | .swap4 | .swap5 | .swap6 | .swap7 | .swap8 | .swap9 | .swap10 | .swap11
  | .swap12 | .swap13 | .swap14 | .swap15 | .swap16 | .log0 | .log1 | .log2 | .log3
  | .log4 | .create | .call | .ret | .delegatecall | .staticcall | .revert | .selfdestruct => true

end Sys2Proof
end

