-- ==== Sys2Proof/Decode.lean ====
section
/-!
DEFINITION. From bytes to instructions and back: the byte-order helpers, the opcode map of spec/30_encoding.md R104
as lists of rows, the decoder (total on any bytes, rejecting by name), and after it the encoder, written from the
same map.
-/

namespace Sys2Proof

/-- R21 `be(bytes)`: the integer whose big-endian representation is `bytes`. -/
def beNat (bs : Bytes) : Nat := bs.foldl (fun acc b => acc * 256 + b.toNat) 0

/-- `be(bytes)` as a Word (R81: the first byte is the most significant). -/
def beWord (bs : Bytes) : Word := BitVec.ofNat 256 (beNat bs)

/-- R21 `bytes_N`: the `n`-byte big-endian representation of `x` modulo 256^n. -/
def bytesBE : Nat → Nat → Bytes
  | 0, _ => []
  | n + 1, x => BitVec.ofNat 8 (x / 256 ^ n) :: bytesBE n x

/-- R85 `PadRead(buf, offset, n)`: byte i is `buf[offset + i]`, or 0 past the end. Exact arithmetic. -/
def padRead (buf : Bytes) (offset n : Nat) : Bytes :=
  (List.range n).map fun i => (buf[offset + i]?).getD 0

/-- R103 `immwidth(op)`: the number of immediate bytes, decided by the opcode byte alone. -/
def immWidth (op : Byte) : Nat :=
  if 0x60 ≤ op.toNat ∧ op.toNat ≤ 0x7f then op.toNat - 0x5f else 0

/-- R104, bytes 0x00 to 0x0b: STOP and the arithmetic unit. -/
def opRowsArith : List (Byte × Instr) :=
  [(0x00, .stop), (0x01, .add), (0x02, .mul), (0x03, .sub), (0x04, .div), (0x05, .sdiv),
   (0x06, .mod), (0x07, .smod), (0x08, .addmod), (0x09, .mulmod), (0x0a, .exp), (0x0b, .signextend)]

/-- R104, bytes 0x10 to 0x1d: comparison, bitwise and shift operations. -/
def opRowsCompare : List (Byte × Instr) :=
  [(0x10, .lt), (0x11, .gt), (0x12, .slt), (0x13, .sgt), (0x14, .eq), (0x15, .iszero),
   (0x16, .and), (0x17, .or), (0x18, .xor), (0x19, .not), (0x1a, .byte), (0x1b, .shl),
   (0x1c, .shr), (0x1d, .sar)]

/-- R104, bytes 0x20 to 0x3f: the hash and the environment. -/
def opRowsEnv : List (Byte × Instr) :=
  [(0x20, .sha3), (0x30, .address), (0x31, .balance), (0x32, .origin), (0x33, .caller), (0x34, .callvalue),
   (0x35, .calldataload), (0x36, .calldatasize), (0x37, .calldatacopy), (0x38, .codesize), (0x39, .codecopy), (0x3a, .gasprice),
   (0x3b, .extcodesize), (0x3c, .extcodecopy), (0x3d, .returndatasize), (0x3e, .returndatacopy), (0x3f, .extcodehash)]

/-- R104, bytes 0x41 to 0x48: the block context and SELFBALANCE. -/
def opRowsBlock : List (Byte × Instr) :=
  [(0x41, .coinbase), (0x42, .timestamp), (0x43, .number), (0x44, .difficulty), (0x45, .gaslimit), (0x46, .chainid),
   (0x47, .selfbalance), (0x48, .basefee)]

/-- R104, bytes 0x50 to 0x5f: stack, memory, storage and control; PUSH0 has no immediate (R167). -/
def opRowsStorage : List (Byte × Instr) :=
  [(0x50, .pop), (0x51, .mload), (0x52, .mstore), (0x53, .mstore8), (0x54, .sload), (0x55, .sstore),
   (0x56, .jump), (0x57, .jumpi), (0x58, .pc), (0x59, .msize), (0x5b, .jumpdest), (0x5f, .push0)]

/-- R103, R104: DUPn is byte 0x7f + n. -/
def opRowsDup : List (Byte × Instr) :=
  [(0x80, .dup1), (0x81, .dup2), (0x82, .dup3), (0x83, .dup4), (0x84, .dup5), (0x85, .dup6),
   (0x86, .dup7), (0x87, .dup8), (0x88, .dup9), (0x89, .dup10), (0x8a, .dup11), (0x8b, .dup12),
   (0x8c, .dup13), (0x8d, .dup14), (0x8e, .dup15), (0x8f, .dup16)]

/-- R103, R104: SWAPn is byte 0x8f + n. -/
def opRowsSwap : List (Byte × Instr) :=
  [(0x90, .swap1), (0x91, .swap2), (0x92, .swap3), (0x93, .swap4), (0x94, .swap5), (0x95, .swap6),
   (0x96, .swap7), (0x97, .swap8), (0x98, .swap9), (0x99, .swap10), (0x9a, .swap11), (0x9b, .swap12),
   (0x9c, .swap13), (0x9d, .swap14), (0x9e, .swap15), (0x9f, .swap16)]

/-- R103, R104: LOGn is byte 0xa0 + n. -/
def opRowsLog : List (Byte × Instr) :=
  [(0xa0, .log0), (0xa1, .log1), (0xa2, .log2), (0xa3, .log3), (0xa4, .log4)]

/-- R104, bytes 0xf0 to 0xff: creation, calls and the halting instructions. -/
def opRowsSystem : List (Byte × Instr) :=
  [(0xf0, .create), (0xf1, .call), (0xf3, .ret), (0xf4, .delegatecall), (0xfa, .staticcall), (0xfd, .revert),
   (0xff, .selfdestruct)]

/-- R104: the rows of the opcode map whose format is `OP` (one byte), 107 of the 139. -/
def opRows : List (Byte × Instr) :=
  opRowsArith ++ opRowsCompare ++ opRowsEnv ++ opRowsBlock ++ opRowsStorage
    ++ opRowsDup ++ opRowsSwap ++ opRowsLog ++ opRowsSystem

/-- R101: the PUSHN of `n` immediate bytes, for n = 1 .. 32. -/
def pushOf (n : Nat) (w : Word) : Option Instr :=
  match n with
  | 1 => some (.push1 w)
  | 2 => some (.push2 w)
  | 3 => some (.push3 w)
  | 4 => some (.push4 w)
  | 5 => some (.push5 w)
  | 6 => some (.push6 w)
  | 7 => some (.push7 w)
  | 8 => some (.push8 w)
  | 9 => some (.push9 w)
  | 10 => some (.push10 w)
  | 11 => some (.push11 w)
  | 12 => some (.push12 w)
  | 13 => some (.push13 w)
  | 14 => some (.push14 w)
  | 15 => some (.push15 w)
  | 16 => some (.push16 w)
  | 17 => some (.push17 w)
  | 18 => some (.push18 w)
  | 19 => some (.push19 w)
  | 20 => some (.push20 w)
  | 21 => some (.push21 w)
  | 22 => some (.push22 w)
  | 23 => some (.push23 w)
  | 24 => some (.push24 w)
  | 25 => some (.push25 w)
  | 26 => some (.push26 w)
  | 27 => some (.push27 w)
  | 28 => some (.push28 w)
  | 29 => some (.push29 w)
  | 30 => some (.push30 w)
  | 31 => some (.push31 w)
  | 32 => some (.push32 w)
  | _ => none

/-- R104: the instruction an opcode byte and the value of its immediate bytes stand for; none for the 117 unknown
byte values of R106. -/
def decodeOp (op : Byte) (imm : Word) : Option Instr :=
  if immWidth op = 0 then (opRows.find? fun row => row.1 == op).map Prod.snd
  else pushOf (immWidth op) imm

/-- What decoding answers. -/
inductive Decoded where
  /-- an instruction, and the bytes after it -/
  | instr (i : Instr) (rest : Bytes)
  /-- R106: the first byte is no opcode of the map -/
  | unknownOpcode (op : Byte)
  /-- R241: there is no byte to fetch -/
  | endOfCode
  deriving DecidableEq, Repr

/-- R100 to R103: decode the instruction at the head of `bs`. Immediate bytes past the end of the code read as 0
(R102: "zero-padding for any that run past code end"). -/
def decode (bs : Bytes) : Decoded :=
  match bs with
  | [] => .endOfCode
  | op :: rest =>
    match decodeOp op (beWord (padRead rest 0 (immWidth op))) with
    | some i => .instr i (rest.drop (immWidth op))
    | none => .unknownOpcode op

/-- R104: the opcode byte of an instruction and the value of its immediate (0 where it has none). -/
def Instr.parts : Instr → Byte × Word
  | .stop => (0x00, 0)
  | .add => (0x01, 0)
  | .mul => (0x02, 0)
  | .sub => (0x03, 0)
  | .div => (0x04, 0)
  | .sdiv => (0x05, 0)
  | .mod => (0x06, 0)
  | .smod => (0x07, 0)
  | .addmod => (0x08, 0)
  | .mulmod => (0x09, 0)
  | .exp => (0x0a, 0)
  | .signextend => (0x0b, 0)
  | .lt => (0x10, 0)
  | .gt => (0x11, 0)
  | .slt => (0x12, 0)
  | .sgt => (0x13, 0)
  | .eq => (0x14, 0)
  | .iszero => (0x15, 0)
  | .and => (0x16, 0)
  | .or => (0x17, 0)
  | .xor => (0x18, 0)
  | .not => (0x19, 0)
  | .byte => (0x1a, 0)
  | .shl => (0x1b, 0)
  | .shr => (0x1c, 0)
  | .sar => (0x1d, 0)
  | .sha3 => (0x20, 0)
  | .address => (0x30, 0)
  | .balance => (0x31, 0)
  | .origin => (0x32, 0)
  | .caller => (0x33, 0)
  | .callvalue => (0x34, 0)
  | .calldataload => (0x35, 0)
  | .calldatasize => (0x36, 0)
  | .calldatacopy => (0x37, 0)
  | .codesize => (0x38, 0)
  | .codecopy => (0x39, 0)
  | .gasprice => (0x3a, 0)
  | .extcodesize => (0x3b, 0)
  | .extcodecopy => (0x3c, 0)
  | .returndatasize => (0x3d, 0)
  | .returndatacopy => (0x3e, 0)
  | .extcodehash => (0x3f, 0)
  | .coinbase => (0x41, 0)
  | .timestamp => (0x42, 0)
  | .number => (0x43, 0)
  | .difficulty => (0x44, 0)
  | .gaslimit => (0x45, 0)
  | .chainid => (0x46, 0)
  | .selfbalance => (0x47, 0)
  | .basefee => (0x48, 0)
  | .pop => (0x50, 0)
  | .mload => (0x51, 0)
  | .mstore => (0x52, 0)
  | .mstore8 => (0x53, 0)
  | .sload => (0x54, 0)
  | .sstore => (0x55, 0)
  | .jump => (0x56, 0)
  | .jumpi => (0x57, 0)
  | .pc => (0x58, 0)
  | .msize => (0x59, 0)
  | .jumpdest => (0x5b, 0)
  | .push0 => (0x5f, 0)
  | .push1 imm => (0x60, imm)
  | .push2 imm => (0x61, imm)
  | .push3 imm => (0x62, imm)
  | .push4 imm => (0x63, imm)
  | .push5 imm => (0x64, imm)
  | .push6 imm => (0x65, imm)
  | .push7 imm => (0x66, imm)
  | .push8 imm => (0x67, imm)
  | .push9 imm => (0x68, imm)
  | .push10 imm => (0x69, imm)
  | .push11 imm => (0x6a, imm)
  | .push12 imm => (0x6b, imm)
  | .push13 imm => (0x6c, imm)
  | .push14 imm => (0x6d, imm)
  | .push15 imm => (0x6e, imm)
  | .push16 imm => (0x6f, imm)
  | .push17 imm => (0x70, imm)
  | .push18 imm => (0x71, imm)
  | .push19 imm => (0x72, imm)
  | .push20 imm => (0x73, imm)
  | .push21 imm => (0x74, imm)
  | .push22 imm => (0x75, imm)
  | .push23 imm => (0x76, imm)
  | .push24 imm => (0x77, imm)
  | .push25 imm => (0x78, imm)
  | .push26 imm => (0x79, imm)
  | .push27 imm => (0x7a, imm)
  | .push28 imm => (0x7b, imm)
  | .push29 imm => (0x7c, imm)
  | .push30 imm => (0x7d, imm)
  | .push31 imm => (0x7e, imm)
  | .push32 imm => (0x7f, imm)
  | .dup1 => (0x80, 0)
  | .dup2 => (0x81, 0)
  | .dup3 => (0x82, 0)
  | .dup4 => (0x83, 0)
  | .dup5 => (0x84, 0)
  | .dup6 => (0x85, 0)
  | .dup7 => (0x86, 0)
  | .dup8 => (0x87, 0)
  | .dup9 => (0x88, 0)
  | .dup10 => (0x89, 0)
  | .dup11 => (0x8a, 0)
  | .dup12 => (0x8b, 0)
  | .dup13 => (0x8c, 0)
  | .dup14 => (0x8d, 0)
  | .dup15 => (0x8e, 0)
  | .dup16 => (0x8f, 0)
  | .swap1 => (0x90, 0)
  | .swap2 => (0x91, 0)
  | .swap3 => (0x92, 0)
  | .swap4 => (0x93, 0)
  | .swap5 => (0x94, 0)
  | .swap6 => (0x95, 0)
  | .swap7 => (0x96, 0)
  | .swap8 => (0x97, 0)
  | .swap9 => (0x98, 0)
  | .swap10 => (0x99, 0)
  | .swap11 => (0x9a, 0)
  | .swap12 => (0x9b, 0)
  | .swap13 => (0x9c, 0)
  | .swap14 => (0x9d, 0)
  | .swap15 => (0x9e, 0)
  | .swap16 => (0x9f, 0)
  | .log0 => (0xa0, 0)
  | .log1 => (0xa1, 0)
  | .log2 => (0xa2, 0)
  | .log3 => (0xa3, 0)
  | .log4 => (0xa4, 0)
  | .create => (0xf0, 0)
  | .call => (0xf1, 0)
  | .ret => (0xf3, 0)
  | .delegatecall => (0xf4, 0)
  | .staticcall => (0xfa, 0)
  | .revert => (0xfd, 0)
  | .selfdestruct => (0xff, 0)

/-- The opcode byte. -/
def Instr.opcode (i : Instr) : Byte := i.parts.1

/-- R101: the length in bytes, `1 + immwidth(op)`. -/
def Instr.length (i : Instr) : Nat := 1 + immWidth i.opcode

/-- R101: the bytes of an instruction: the opcode, then the immediate most significant byte first. -/
def encode (i : Instr) : Bytes := i.opcode :: bytesBE (immWidth i.opcode) i.parts.2.toNat

/-- The longest instruction, PUSH32, has 33 bytes (R101). -/
def longestInstr : Nat := 33

/-- The bytes of a word numbered as spec/opcode_table.json numbers it (bit 0 the least significant bit of the first
byte, a later byte's bits counting on from it): its first `nbits / 8` bytes, then zeros up to the longest
instruction. -/
def tableBytes (nbits w : Nat) : Bytes :=
  (List.range longestInstr).map fun j => if j < nbits / 8 then BitVec.ofNat 8 (w / 256 ^ j) else 0

/-- The instruction the decoder reads from a word of the opcode table. -/
def decodeTableWord (nbits w : Nat) : Option Instr :=
  match decode (tableBytes nbits w) with
  | .instr i _ => some i
  | .unknownOpcode _ => none
  | .endOfCode => none

end Sys2Proof
end

