-- ==== Sys2Proof/Machine/JumpScan.lean ====
section
/-!
DEFINITION. The jump-destination validator (spec/44_control.md R245, R246): one forward scan of the code that skips the
immediate bytes of every PUSHN.
-/

namespace Sys2Proof.Machine

/-- The scan of R245 from offset `i`, `skip` immediate bytes still to be passed over. The targets found, in rising
order. -/
def scanFrom (skip i : Nat) (bs : Bytes) : List Nat :=
  match skip, bs with
  | _, [] => []
  | k + 1, _ :: rest => scanFrom k (i + 1) rest
  | 0, op :: rest =>
    if op = 0x5b then i :: scanFrom 0 (i + 1) rest else scanFrom (immWidth op) (i + 1) rest

/-- R245 `jumpdests(code)`. -/
def jumpdests (code : Bytes) : List Nat := scanFrom 0 0 code

end Sys2Proof.Machine
end

