-- ==== Sys2Proof/Machine/Maps.lean ====
section
/-!
DEFINITION. The operations on finite maps (`SMap`) and on sets of addresses, all of which keep the canonical form
(Laws/Maps.lean). The machine's memory, storage, world and nonces are read and written through them only.
-/

namespace Sys2Proof.Machine

variable {α : Type}

/-- The value at `i`, if there is one. -/
def mapGet (m : SMap α) (i : Nat) : Option α :=
  match m with
  | [] => none
  | (k, v) :: rest => if i = k then some v else mapGet rest i

/-- Set the value at `i`. -/
def mapPut (m : SMap α) (i : Nat) (v : α) : SMap α :=
  match m with
  | [] => [(i, v)]
  | (k, w) :: rest =>
    if i < k then (i, v) :: (k, w) :: rest
    else if i = k then (i, v) :: rest
    else (k, w) :: mapPut rest i v

/-- Remove the entry at `i`. -/
def mapErase (m : SMap α) (i : Nat) : SMap α :=
  match m with
  | [] => []
  | (k, w) :: rest => if i = k then mapErase rest i else (k, w) :: mapErase rest i

/-- Read a total map whose unlisted keys hold `d`. -/
def mapRead (d : α) (m : SMap α) (i : Nat) : α := (mapGet m i).getD d

/-- Write a total map whose unlisted keys hold `d`: writing `d` removes the entry. -/
def mapWrite [DecidableEq α] (d : α) (m : SMap α) (i : Nat) (v : α) : SMap α :=
  if v = d then mapErase m i else mapPut m i v

/-- Add an address to a set held in rising order. -/
def addrInsert (A : Addr) (set : List Addr) : List Addr :=
  match set with
  | [] => [A]
  | B :: rest =>
    if A.toNat < B.toNat then A :: B :: rest
    else if A = B then B :: rest
    else B :: addrInsert A rest

end Sys2Proof.Machine
end

