-- ==== Sys2Proof/Config.lean ====
section
/-!
DEFINITION. What an implementation fixes: the parameters of spec/00_scope.md R9 to R17, and the functions and the
one free value the spec leaves open (R12, R13, R56). The parameters that are data are a record the machine state
carries unchanged, so that a statement about every state is a statement about every setting of them (log entry 1).
The functions and the free value are constants with no body: nothing can be proved of what they give
(log entries 5 and 6).
-/

namespace Sys2Proof

/-- R16: what RETURNDATACOPY does when it reads past the end of the return data. -/
inductive OobPolicy where
  /-- the missing bytes read as 0 (the default) -/
  | zeroPad
  /-- the frame fails with `ReturnDataOutOfBounds` -/
  | fail
  deriving DecidableEq, Repr

/-- The implementation parameters of R9 to R17 that are data, and the two register widths R393 speaks of. -/
structure Params where
  /-- R9 `STACK_LIMIT`: the greatest number of Words a frame's stack may hold -/
  stackLimit : Nat
  /-- R10 `DEPTH_LIMIT`: the greatest `depth` a frame may have -/
  depthLimit : Nat
  /-- R11 `STEP_LIMIT`: an optional ceiling on the instruction steps of one run -/
  stepLimit : Option Nat
  /-- R17 `MEM_CAPACITY`: an optional bound on the memory bytes of a frame -/
  memCapacity : Option Nat
  /-- R393: the greatest value the implementation's pc register holds, if it has a bound (log entry 19) -/
  pcLimit : Option Nat
  /-- R393: the greatest length its length registers hold, if they have a bound (log entry 19) -/
  lengthLimit : Option Nat
  /-- R14 `ZERO_LENGTH_GROWS`: whether an access of length 0 grows the memory size -/
  zeroLengthGrows : Bool
  /-- R15 `LOGS_ROLL_BACK`: whether a rollback also discards log entries -/
  logsRollBack : Bool
  /-- R16 `RETURNDATACOPY_OOB` -/
  returndatacopyOob : OobPolicy
  /-- R17 `CALL_HAS_GAS_OPERAND`: whether the call instructions pop a leading Word that is ignored -/
  callHasGasOperand : Bool
  deriving DecidableEq, Repr

/-- The defaults of R9 to R17; no bound on the registers. -/
def Params.defaults : Params :=
  { stackLimit := 1024
    depthLimit := 1024
    stepLimit := none
    memCapacity := none
    pcLimit := none
    lengthLimit := none
    zeroLengthGrows := true
    logsRollBack := false
    returndatacopyOob := .zeroPad
    callHasGasOperand := false }

/-- R12 `Hash`: "injected as `keccak256(bytes) -> 32-byte digest`". A total function of its argument; nothing else
is assumed of it (log entry 6). -/
opaque Config.hash : Bytes → Vector Byte 32

/-- R13 `CreateAddress`: a total function of the sender and the sender's nonce; nothing else is assumed of it, not
even injectivity (log entry 6). -/
opaque Config.createAddress : Addr → Nat → Addr

/-- R56: the content of `Result.stack` after an unsuccessful run, which "a model must treat as any value". A free
value: the argument is the state's counter `freeCount`, so each use is a value of its own (log entry 5). -/
opaque Config.freeResultStack : Nat → List Word

end Sys2Proof
end

