-- ==== Sys2Proof/Machine/Operands.lean ====
section
/-!
DEFINITION. Operand forms. Every operand but a PUSH immediate comes from the stack (spec/30_encoding.md R100), in pop
order (spec/00_scope.md R20); the operands of the plain instructions are read by matching on the stack in the
shared operations of Ops.lean. Here stand the forms that need more: addresses, Words as byte sequences, and the
layouts of the call instructions.
-/

namespace Sys2Proof.Machine

/-- R26: `addr(w) = w mod 2^160`, the upper 96 bits are ignored. -/
def toAddr (w : Word) : Addr := w.setWidth 160

/-- R26: an address is pushed as `zext_160`, the Word with the same numeric value. -/
def ofAddr (A : Addr) : Word := A.setWidth 256

/-- R81: `bytes_32(w)`, most significant byte first. -/
def wordBytes (w : Word) : Bytes := bytesBE 32 w.toNat

/-- A length pushed as a Word (R87). -/
def lengthWord (bs : Bytes) : Word := BitVec.ofNat 256 bs.length

/-- R239, R271: the digest of a byte sequence as a Word, its first byte most significant. -/
def hashWord (bs : Bytes) : Word := beWord (Config.hash bs).toList

/-- R309: the operands of CALL, DELEGATECALL and STATICCALL; `value` is 0 for the two that have none. `rest` is the
stack below them. -/
structure CallOperands where
  target : Word
  value : Word
  inOff : Word
  inSize : Word
  outOff : Word
  outSize : Word
  rest : List Word
  deriving DecidableEq, Repr

/-- R309: the leading gas operand, popped first and ignored, present only under `CALL_HAS_GAS_OPERAND`. -/
def dropGas (hasGas : Bool) (stack : List Word) : Option (List Word) :=
  match hasGas, stack with
  | false, st => some st
  | true, _ :: st => some st
  | true, [] => none

/-- R309, CALL: `[g,] a, v, inOff, inSize, outOff, outSize`; none if the stack holds fewer. -/
def popCall (hasGas : Bool) (stack : List Word) : Option CallOperands :=
  match dropGas hasGas stack with
  | some (a :: v :: inOff :: inSize :: outOff :: outSize :: rest) =>
    some { target := a, value := v, inOff := inOff, inSize := inSize, outOff := outOff, outSize := outSize, rest := rest }
  | _ => none

/-- R309, DELEGATECALL and STATICCALL: `[g,] a, inOff, inSize, outOff, outSize`; none if the stack holds fewer. -/
def popCallNoValue (hasGas : Bool) (stack : List Word) : Option CallOperands :=
  match dropGas hasGas stack with
  | some (a :: inOff :: inSize :: outOff :: outSize :: rest) =>
    some { target := a, value := 0, inOff := inOff, inSize := inSize, outOff := outOff, outSize := outSize, rest := rest }
  | _ => none

end Sys2Proof.Machine
end

