-- ==== Sys2Proof/Machine/State.lean ====
section
/-!
DEFINITION. The state of the machine as plain data (spec/10_state.md), the reasons a step of the model can stop, and
the state after reset. Names follow the rules of spec/10_state.md.
-/

namespace Sys2Proof.Machine

/-- R340: the failure kinds, in the order of R341's codes. -/
inductive FailureKind where
  | stackUnderflow
  | stackOverflow
  | invalidJumpDestination
  | unknownOpcode
  | staticViolation
  | missingContextField
  /-- never halts a frame: the reason a call whose target has no code answers 0 (R348) -/
  | callTargetNotFound
  /-- never halts a frame: the reason a call or CREATE at the depth limit answers 0 (R349) -/
  | depthLimitExceeded
  /-- only under `RETURNDATACOPY_OOB = fail` (R340) -/
  | returnDataOutOfBounds
  deriving DecidableEq, Repr

/-- R40: how a frame ended. -/
inductive HaltOutcome where
  | ret (out : Bytes)
  | revert (out : Bytes)
  | fail (kind : FailureKind)
  deriving DecidableEq, Repr

/-- R40: `status` of a frame. -/
inductive FrameStatus where
  | running
  | halted (outcome : HaltOutcome)
  deriving DecidableEq, Repr

/-- R32, R71: the memory of a frame. `cells` lists the bytes that are not 0, addresses strictly rising; an address
not listed reads as 0 ("bytes never written read as zero"). `size` is `msize`. -/
structure Memory where
  cells : List Host.Cell
  size : Nat
  deriving DecidableEq, Repr

/-- R44: an account. `storage` lists the keys whose value is not 0 (R45: unset keys read as 0). -/
structure Account where
  balance : Word
  code : Bytes
  storage : SMap Word
  deriving DecidableEq, Repr

/-- R43: the partial map Addr -> Account, keyed by the address as a natural. -/
abbrev World := SMap Account

/-- R49: one log entry. -/
structure Log where
  address : Addr
  data : Bytes
  topics : List Word
  deriving DecidableEq, Repr

/-- R50: a snapshot is the triple (`world`, `destruct`, length of `logs`). -/
structure Snapshot where
  world : World
  destruct : List Addr
  logCount : Nat
  deriving DecidableEq, Repr

/-- R41: what made the frame, with the parent's pending operands. -/
inductive FrameKind where
  | top
  | call (outOff outSize : Word)
  | delegateCall (outOff outSize : Word)
  | staticCall (outOff outSize : Word)
  | create (newAddress : Addr) (value : Word)
  deriving DecidableEq, Repr

/-- R27 to R41: one frame. `snapshot` and `kind` are the saved entry record of R41, which no instruction sees. -/
structure Frame where
  /-- R31 -/
  code : Bytes
  /-- R31, R245: the valid jump targets, a function of `code`, in rising order -/
  jumpdests : List Nat
  /-- R30 -/
  pc : Nat
  /-- R29: the top of the stack first -/
  stack : List Word
  /-- R32 -/
  memory : Memory
  /-- R33 -/
  address : Option Addr
  /-- R34 -/
  caller : Option Addr
  /-- R36 -/
  value : Option Word
  /-- R35 -/
  calldata : Bytes
  /-- R37: the static flag, the machine's one mode bit (R360) -/
  isStatic : Bool
  /-- R38 -/
  depth : Nat
  /-- R39 -/
  returndata : Bytes
  /-- R40 -/
  status : FrameStatus
  /-- R41: the world at frame entry -/
  snapshot : Snapshot
  /-- R41 -/
  kind : FrameKind
  deriving DecidableEq, Repr

/-- R51: the transaction context registers; `none` is "absent". -/
structure TxContext where
  toAddr : Option Addr
  fromAddr : Option Addr
  origin : Option Addr
  gasprice : Option Word
  value : Option Word
  data : Option Bytes
  deriving DecidableEq, Repr

/-- R52: the block context registers; `none` is "absent". No instruction reads `gasprice`. -/
structure BlockContext where
  number : Option Word
  timestamp : Option Word
  coinbase : Option Addr
  gaslimit : Option Word
  gasprice : Option Word
  difficulty : Option Word
  chainid : Option Word
  basefee : Option Word
  deriving DecidableEq, Repr

/-- R57: the run status register. The Result of `Done(Result)` is the field `result` of the state. -/
inductive RunStatus where
  | idle
  | running
  | done
  deriving DecidableEq, Repr

/-- R56: the Result of a run. `stack` is top first; `returned` is the spec's `return`. -/
structure Result where
  success : Bool
  stack : List Word
  logs : List Log
  returned : Bytes
  deriving DecidableEq, Repr

/-- The state of the machine: the host-visible state and the state of one run (R42 to R57). -/
structure State where
  /-- R57 -/
  runStatus : RunStatus
  /-- R42: the running frame first, the top-level frame last -/
  frames : List Frame
  /-- R43 -/
  world : World
  /-- R47: a set, in rising order with no repeats -/
  destruct : List Addr
  /-- R48: keyed by the address as a natural; an address not listed has nonce 0 -/
  nonce : SMap Nat
  /-- R49: oldest first -/
  logs : List Log
  /-- R51 -/
  tx : TxContext
  /-- R52 -/
  block : BlockContext
  /-- R54 -/
  steps : Nat
  /-- R56 -/
  result : Option Result
  /-- R57, R341: the code of the top-level frame's failure, or 0 -/
  lastFailure : Nat
  /-- the implementation's parameters; the model's own field (log entry 1) -/
  params : Params
  /-- how many free values have been drawn; the model's own field (log entry 5) -/
  freeCount : Nat
  deriving DecidableEq, Repr

/-- Why a step of the model stops with a fault. Both are raised only in states whose frame list no run has
(Safety.lean's invariant rules them out; log entry 12); the machine's own failures are next states. Safe: the model
stops where the spec describes no machine. -/
inductive Fault where
  /-- the run status is Running, or an instruction is executed, and there is no frame; raised by `onTop` and `step`; safe -/
  | noRunningFrame
  /-- a halted frame of kind `top` has a frame below it; raised by `returnTransition`; safe -/
  | topFrameHasParent
  deriving DecidableEq, Repr

/-- Why the model gives a run no meaning. -/
inductive Refusal where
  /-- an instruction with no meaning in the model; raised by no arm of `exec`; safe -/
  | notModelled (mnemonic : String)
  /-- R393: the run's `steps` would pass STEP_LIMIT; raised by the fetch; the spec refuses such a run; safe -/
  | stepLimitExceeded
  /-- R79: a frame's `msize` would exceed MEM_CAPACITY; raised by every memory access; the spec refuses such a run; safe -/
  | memCapacityExceeded
  /-- R393: the run needs a pc or a length wider than the registers that hold it; raised by the advance of the pc in the
  fetch, by a jump and by every memory access; the spec refuses such a run; safe -/
  | registerWidthExceeded
  deriving DecidableEq, Repr

/-- R32: the memory of a fresh frame, all 0 and of size 0. -/
def Memory.empty : Memory := { cells := [], size := 0 }

/-- R51: every field absent. -/
def TxContext.absent : TxContext :=
  { toAddr := none, fromAddr := none, origin := none, gasprice := none, value := none, data := none }

/-- R52: every field absent. -/
def BlockContext.absent : BlockContext :=
  { number := none, timestamp := none, coinbase := none, gaslimit := none, gasprice := none, difficulty := none
    chainid := none, basefee := none }

/-- R59: the machine right after reset, with the default parameters. -/
def State.reset : State :=
  { runStatus := .idle
    frames := []
    world := []
    destruct := []
    nonce := []
    logs := []
    tx := TxContext.absent
    block := BlockContext.absent
    steps := 0
    result := none
    lastFailure := 0
    params := Params.defaults
    freeCount := 0 }

end Sys2Proof.Machine
end

