-- ==== Sys2Proof/Machine/Ops.lean ====
section
/-!
DEFINITION. The operations the meanings share: the memory unit, the world state, the running frame, the stack shapes of
the plain instructions, and the call-frame engine: raising a failure (the machine's one exception entry), halting,
snapshot, rollback, frame creation, the return transition and the end of a run.
-/

namespace Sys2Proof.Machine

/-- What a meaning answers. -/
abbrev Out := Host.Outcome State Fault Refusal

/-! ## The memory unit (spec/20_memory.md) -/

/-- What an address not listed in `cells` reads as (R32: "bytes never written read as zero"). -/
def unlistedByte : Byte := 0

/-- The canonical form of a memory: addresses strictly rising, no entry equal to what an unlisted address reads as,
and R71's invariants: the size is a multiple of 32 and every byte at or above it is 0. -/
abbrev Memory.wf (m : Memory) : Prop :=
  MapSorted m.cells ∧ (∀ c ∈ m.cells, c.2 ≠ unlistedByte) ∧ m.size % 32 = 0 ∧ (∀ c ∈ m.cells, c.1 < m.size)

/-- The byte at offset `a`. -/
def Memory.byteAt (m : Memory) (a : Nat) : Byte := mapRead unlistedByte m.cells a

/-- R74: the bytes at offsets off .. off+n-1, without the growth. -/
def Memory.bytesAt (m : Memory) (off n : Nat) : Bytes := (List.range n).map fun i => m.byteAt (off + i)

/-- R75: store `v` at offsets off .. , without the growth. -/
def Memory.store (m : Memory) (off : Nat) (v : Bytes) : Memory :=
  match v with
  | [] => m
  | b :: rest => Memory.store { m with cells := mapWrite unlistedByte m.cells off b } (off + 1) rest

/-- R73: `need = ceil((offset + length) / 32) * 32`, exact arithmetic (R72). -/
def ceilRow (n : Nat) : Nat := (n + 31) / 32 * 32

/-- R73 `grow(offset, length)`: the new `msize`. -/
def grownSize (p : Params) (size off n : Nat) : Nat :=
  if n = 0 ∧ p.zeroLengthGrows = false then size else max size (ceilRow (off + n))

/-- The memory after `grow(off, n)`. -/
def Memory.grow (m : Memory) (p : Params) (off n : Nat) : Memory := { m with size := grownSize p m.size off n }

/-- Whether `n` is within a bound, if there is one. -/
def fitsLimit (limit : Option Nat) (n : Nat) : Bool :=
  match limit with
  | none => true
  | some m => decide (n ≤ m)

/-- R79: whether a memory of `size` bytes is within MEM_CAPACITY. -/
def fitsCapacity (p : Params) (size : Nat) : Bool := fitsLimit p.memCapacity size

/-- R393: whether the implementation's length registers hold the length `n`. -/
def fitsLength (p : Params) (n : Nat) : Bool := fitsLimit p.lengthLimit n

/-- R393: whether the implementation's pc register holds `n`. -/
def fitsPc (p : Params) (n : Nat) : Bool := fitsLimit p.pcLimit n

/-- Every memory access of an instruction goes through here: refuse the run where no register holds the length (R393;
log entry 19) or the grown memory would exceed MEM_CAPACITY (R79; log entry 15), or grow (R73) and go on with the grown
memory. -/
def withGrown (s : State) (f : Frame) (off n : Nat) (body : Memory → Out) : Out :=
  if fitsLength s.params n then
    if fitsCapacity s.params (f.memory.grow s.params off n).size then body (f.memory.grow s.params off n)
    else .refused .memCapacityExceeded
  else .refused .registerWidthExceeded

/-! ## The world state (spec/10_state.md R43 to R50) -/

/-- R44: what an absent account reads as, and what a write to one starts from. -/
def Account.zero : Account := { balance := 0, code := [], storage := [] }

/-- R44: the account at A, "conceptually"; a read adds no entry. -/
def accountAt (w : World) (A : Addr) : Account := mapRead Account.zero w A.toNat

/-- R44 `bal(A)`. -/
def balanceOf (w : World) (A : Addr) : Word := (accountAt w A).balance

/-- R44 `codeOf(A)`. -/
def codeOf (w : World) (A : Addr) : Bytes := (accountAt w A).code

/-- R44, R45 `stor(A, k)`. -/
def storageAt (w : World) (A : Addr) (k : Word) : Word := mapRead 0 (accountAt w A).storage k.toNat

/-- Write an account; an absent one is created (R44). -/
def putAccount (w : World) (A : Addr) (a : Account) : World := mapPut w A.toNat a

/-- Set the balance at A. -/
def setBalance (w : World) (A : Addr) (n : Word) : World := putAccount w A { accountAt w A with balance := n }

/-- R46 `credit(A, n)`, modulo 2^256. -/
def credit (w : World) (A : Addr) (n : Word) : World := setBalance w A (balanceOf w A + n)

/-- R46 `debit(A, n)`, modulo 2^256. -/
def debit (w : World) (A : Addr) (n : Word) : World := setBalance w A (balanceOf w A - n)

/-- R45 `sstore(A, k, v)`. -/
def sstore (w : World) (A : Addr) (k v : Word) : World :=
  putAccount w A { accountAt w A with storage := mapWrite 0 (accountAt w A).storage k.toNat v }

/-- R321: the code of a created account. -/
def setCode (w : World) (A : Addr) (code : Bytes) : World := putAccount w A { accountAt w A with code := code }

/-- R325: remove the accounts marked for removal. -/
def removeAll (w : World) (marked : List Addr) : World := marked.foldl (fun w A => mapErase w A.toNat) w

/-- R48: the nonce of an address. -/
def nonceOf (s : State) (A : Addr) : Nat := mapRead 0 s.nonce A.toNat

/-! ## The running frame -/

/-- Replace the running frame (the top of the frame stack, R42). -/
def State.setTop (s : State) (f : Frame) : State := { s with frames := f :: s.frames.tail }

/-- Act on the running frame. -/
def onTop (s : State) (body : Frame → Out) : Out :=
  match s.frames with
  | [] => .fault .noRunningFrame
  | f :: _ => body f

/-- Sequential advance (R240 part 5): the stack becomes `st` and pc moves past the instruction's `len` bytes. -/
def Frame.proceed (f : Frame) (len : Nat) (st : List Word) : Frame := { f with stack := st, pc := f.pc + len }

/-- The frame with its status Halted. -/
def Frame.halt (f : Frame) (o : HaltOutcome) : Frame := { f with status := .halted o }

/-- R350 part 1: the state after the running frame `f` fails: "F's `status` becomes `Halted(Fail(K))`; nothing else of
F changes". -/
def failed (s : State) (f : Frame) (k : FailureKind) : State := s.setTop (f.halt (.fail k))

/-- R350 `raise`: the machine's one exception entry. The later parts of R350 are the steps `returnTransition` and
`finish`. -/
def raise (s : State) (f : Frame) (k : FailureKind) : Out := .next (failed s f k)

/-! ## The shapes of the plain instructions -/

/-- No operand, no effect but the advance. -/
def plainOp (s : State) : Out := onTop s fun f => .next (s.setTop (f.proceed 1 f.stack))

/-- Pop one, push one. -/
def unaryOp (g : Frame → Word → Word) (s : State) : Out :=
  onTop s fun f =>
    match f.stack with
    | a :: st => .next (s.setTop (f.proceed 1 (g f a :: st)))
    | [] => raise s f .stackUnderflow

/-- R120, R140: pop two, push one; `a` was on top. -/
def binaryOp (g : Word → Word → Word) (s : State) : Out :=
  onTop s fun f =>
    match f.stack with
    | a :: b :: st => .next (s.setTop (f.proceed 1 (g a b :: st)))
    | _ => raise s f .stackUnderflow

/-- R120: pop three, push one; `a` was on top. -/
def ternaryOp (g : Word → Word → Word → Word) (s : State) : Out :=
  onTop s fun f =>
    match f.stack with
    | a :: b :: c :: st => .next (s.setTop (f.proceed 1 (g a b c :: st)))
    | _ => raise s f .stackUnderflow

/-- R160: pop nothing, push one Word, in an instruction of `len` bytes. `v f` is the Word, or none where the context
value it reads is absent (R255). The overflow check comes first (R353). -/
def pushOp (len : Nat) (v : Frame → Option Word) (s : State) : Out :=
  onTop s fun f =>
    if f.stack.length < s.params.stackLimit then
      match v f with
      | some w => .next (s.setTop (f.proceed len (w :: f.stack)))
      | none => raise s f .missingContextField
    else raise s f .stackOverflow

/-- R165. -/
def popOp (s : State) : Out :=
  onTop s fun f =>
    match f.stack with
    | _ :: st => .next (s.setTop (f.proceed 1 st))
    | [] => raise s f .stackUnderflow

/-- R163 `dup(n)`, n counted from 1. -/
def dupOp (n : Nat) (s : State) : Out :=
  onTop s fun f =>
    match f.stack[n - 1]? with
    | some w =>
      if f.stack.length < s.params.stackLimit then .next (s.setTop (f.proceed 1 (w :: f.stack)))
      else raise s f .stackOverflow
    | none => raise s f .stackUnderflow

/-- R164 `swap(n)`: exchange `x[1]` and `x[n+1]`, for n >= 1. -/
def swapOp (n : Nat) (s : State) : Out :=
  onTop s fun f =>
    match f.stack with
    | t :: st =>
      match st[n - 1]? with
      | some w => .next (s.setTop (f.proceed 1 (w :: st.set (n - 1) t)))
      | none => raise s f .stackUnderflow
    | [] => raise s f .stackUnderflow

/-- The COPY instructions on the three buffers of the frame: pop d, s, n (R263); `MemWrite(d, n, PadRead(buf, s, n))`.
`inBounds f src n` tells whether the read is allowed; where it is not the frame fails (R270 under `fail`). -/
def copyOp (buf : Frame → Bytes) (inBounds : Frame → Nat → Nat → Bool) (s : State) : Out :=
  onTop s fun f =>
    match f.stack with
    | d :: src :: n :: st =>
      if inBounds f src.toNat n.toNat then
        withGrown s f d.toNat n.toNat fun m =>
          .next (s.setTop
            { f.proceed 1 st with memory := m.store d.toNat (padRead (buf f) src.toNat n.toNat) })
      else raise s f .returnDataOutOfBounds
    | _ => raise s f .stackUnderflow

/-! ## The call-frame engine (spec/47_call_create.md) -/

/-- R50: capture the snapshot. -/
def snapshotOf (s : State) : Snapshot := { world := s.world, destruct := s.destruct, logCount := s.logs.length }

/-- R50 `rollback(s)`: `world` and `destruct` return to the captured values and, only under `LOGS_ROLL_BACK`, `logs` is
truncated to the captured length. -/
def rollback (s : State) (snap : Snapshot) : State :=
  { s with
    world := snap.world
    destruct := snap.destruct
    logs := if s.params.logsRollBack then s.logs.take snap.logCount else s.logs }

/-- R306: a fresh frame. What the creating instruction decides is in the arguments. -/
def freshFrame (code : Bytes) (address caller : Option Addr) (value : Option Word) (calldata : Bytes)
    (isStatic : Bool) (depth : Nat) (snapshot : Snapshot) (kind : FrameKind) : Frame :=
  { code := code
    jumpdests := jumpdests code
    pc := 0
    stack := []
    memory := Memory.empty
    address := address
    caller := caller
    value := value
    calldata := calldata
    isStatic := isStatic
    depth := depth
    returndata := []
    status := .running
    snapshot := snapshot
    kind := kind }

/-- Why a call or creation answers 0 without a frame (R310 to R312, R321). Nothing records it (R348, R349). -/
inductive NoFrameReason where
  | failure (kind : FailureKind)
  | insufficientBalance
  deriving DecidableEq, Repr

/-- R313: completion without a frame: the operands are popped, 0 is pushed, the return data is empty. -/
def withoutFrame (s : State) (p : Frame) (rest : List Word) : Out :=
  .next (s.setTop { p.proceed 1 (0 :: rest) with returndata := [] })

/-- `bal(A) < v` for the frame's account; a frame with no account has no balance to fall short (R314 part 3 has
already failed it where `v` is not 0). -/
def fallsShort (w : World) (A : Option Addr) (v : Word) : Bool :=
  match A with
  | some B => decide ((balanceOf w B).toNat < v.toNat)
  | none => false

/-- R314 parts 5 to 7, first match wins. Part 7 is reached only by a CALL whose value is not 0. -/
def callBlocked (s : State) (p : Frame) (c : CallOperands) : Option NoFrameReason :=
  if (codeOf s.world (toAddr c.target)).length = 0 then some (.failure .callTargetNotFound)
  else if s.params.depthLimit < p.depth + 1 then some (.failure .depthLimitExceeded)
  else if c.value ≠ 0 ∧ fallsShort s.world p.address c.value = true then some .insufficientBalance
  else none

/-- R312: the value transfer of a CALL; nothing moves where the value is 0. -/
def transfer (w : World) (payer : Option Addr) (T : Addr) (v : Word) : World :=
  match payer with
  | some A => if v = 0 then w else credit (debit w A v) T v
  | none => w

/-- R315: the columns of the table: what the child's `address`, `caller`, `value` and `static` are. -/
structure ChildContext where
  address : Option Addr
  caller : Option Addr
  value : Option Word
  isStatic : Bool
  kind : FrameKind
  deriving DecidableEq, Repr

/-- R314 parts 4 to 11: the operands are popped; then the call answers 0 (R313), or the input is read (growing the
parent's memory), the snapshot is taken, the value moves, and the child is created and runs next; the parent is
suspended. -/
def callOp (s : State) (p : Frame) (c : CallOperands) (child : ChildContext) : Out :=
  match callBlocked s p c with
  | some _ => withoutFrame s p c.rest
  | none =>
    withGrown s p c.inOff.toNat c.inSize.toNat fun m =>
      let k := freshFrame (codeOf s.world (toAddr c.target)) child.address child.caller child.value
        (p.memory.bytesAt c.inOff.toNat c.inSize.toNat) child.isStatic (p.depth + 1) (snapshotOf s) child.kind
      .next
        { s with
          world := transfer s.world p.address (toAddr c.target) c.value
          frames := k :: { p.proceed 1 c.rest with memory := m } :: s.frames.tail }

/-- R322, R323: read the output region (growing the memory) and halt with it. -/
def haltWithOutput (outcome : Bytes → HaltOutcome) (s : State) : Out :=
  onTop s fun f =>
    match f.stack with
    | off :: n :: st =>
      withGrown s f off.toNat n.toNat fun m =>
        .next (s.setTop (Frame.halt { f.proceed 1 st with memory := m }
          (outcome (f.memory.bytesAt off.toNat n.toNat))))
    | _ => raise s f .stackUnderflow

/-- R316: the bytes a halted child delivers: none for a failure. -/
def HaltOutcome.output (o : HaltOutcome) : Bytes :=
  match o with
  | .ret out => out
  | .revert out => out
  | .fail _ => []

/-- R316: `commit` changes nothing; REVERT and a failure roll back to the child's entry snapshot. -/
def settle (s : State) (o : HaltOutcome) (snap : Snapshot) : State :=
  match o with
  | .ret _ => s
  | .revert _ => rollback s snap
  | .fail _ => rollback s snap

/-- R316: the Word the parent of a call receives. -/
def HaltOutcome.flag (o : HaltOutcome) : Word :=
  match o with
  | .ret _ => 1
  | .revert _ => 0
  | .fail _ => 0

/-- R316, R317: the return transition of a child of CALL, DELEGATECALL or STATICCALL that halted with `o`; `p` is the
parent and `below` the frames under it. Exactly `outSize` bytes are copied, zero-padded, for all three outcomes. -/
def callReturn (s : State) (o : HaltOutcome) (snap : Snapshot) (outOff outSize : Word) (p : Frame)
    (below : List Frame) : Out :=
  withGrown s p outOff.toNat outSize.toNat fun m =>
    .next
      { settle s o snap with
        frames :=
          { p with
            memory := m.store outOff.toNat (padRead o.output 0 outSize.toNat)
            returndata := o.output
            stack := o.flag :: p.stack } :: below }

/-- R321: what a CREATE child's success writes: the returned bytes become the code, and the balance is set to the value. -/
def deploy (w : World) (N : Addr) (v : Word) (out : Bytes) : World := setBalance (setCode w N out) N v

/-- R321: the return transition of a CREATE child. There is no output copy; only REVERT leaves return data. -/
def createReturn (s : State) (o : HaltOutcome) (snap : Snapshot) (N : Addr) (v : Word) (p : Frame)
    (below : List Frame) : Out :=
  match o with
  | .ret out =>
    .next
      { s with
        world := deploy s.world N v out
        frames := { p with returndata := [], stack := ofAddr N :: p.stack } :: below }
  | .revert out =>
    .next { rollback s snap with frames := { p with returndata := out, stack := 0 :: p.stack } :: below }
  | .fail _ =>
    .next { rollback s snap with frames := { p with returndata := [], stack := 0 :: p.stack } :: below }

/-- R308: the return transition of the halted child `k` to its parent `p`: `k` is discarded, the parent receives the
result and resumes. It is no instruction step. -/
def returnTransition (s : State) (o : HaltOutcome) (k p : Frame) (below : List Frame) : Out :=
  match k.kind with
  | .top => .fault .topFrameHasParent
  | .call outOff outSize => callReturn s o k.snapshot outOff outSize p below
  | .delegateCall outOff outSize => callReturn s o k.snapshot outOff outSize p below
  | .staticCall outOff outSize => callReturn s o k.snapshot outOff outSize p below
  | .create N v => createReturn s o k.snapshot N v p below

/-- R341: the code of a failure kind. -/
def FailureKind.code (k : FailureKind) : Nat :=
  match k with
  | .stackUnderflow => 1
  | .stackOverflow => 2
  | .invalidJumpDestination => 3
  | .unknownOpcode => 4
  | .staticViolation => 5
  | .missingContextField => 6
  | .callTargetNotFound => 7
  | .depthLimitExceeded => 8
  | .returnDataOutOfBounds => 9

/-- The run ends with a Result: status Done, and the frame stack empty, the last frame being destroyed (log entry 8). -/
def done (s : State) (r : Result) : State := { s with runStatus := .done, frames := [], result := some r }

/-- The end of an unsuccessful run (R325): the top-level snapshot is restored, and `Result.stack` is any value
(R56; log entry 5). -/
def doneUnsuccessful (s : State) (snap : Snapshot) (out : Bytes) : State :=
  { done (rollback s snap)
      { success := false, stack := Config.freeResultStack s.freeCount, logs := (rollback s snap).logs, returned := out } with
    freeCount := s.freeCount + 1 }

/-- R325: the top-level frame `f` halted with `o`: the run ends. -/
def finish (s : State) (o : HaltOutcome) (f : Frame) : State :=
  match o with
  | .ret out =>
    done { s with world := removeAll s.world s.destruct }
      { success := true, stack := f.stack, logs := s.logs, returned := out }
  | .revert out => doneUnsuccessful s f.snapshot out
  | .fail kind => { doneUnsuccessful s f.snapshot [] with lastFailure := kind.code }

end Sys2Proof.Machine
end

