-- ==== Sys2Proof/Machine/Arith.lean ====
section
/-!
DEFINITION. The meanings of the arithmetic unit's instructions (spec/40_arithmetic.md R119 to R131): pop the operands,
push the function of Alu.lean. No instruction of this file can fail but by `StackUnderflow` (R120).
-/

namespace Sys2Proof.Machine

/-- R121: ADD. -/
def execAdd (s : State) : Out := binaryOp aluAdd s

/-- R122: MUL. -/
def execMul (s : State) : Out := binaryOp aluMul s

/-- R123: SUB. -/
def execSub (s : State) : Out := binaryOp aluSub s

/-- R124: DIV. -/
def execDiv (s : State) : Out := binaryOp aluDiv s

/-- R125: SDIV. -/
def execSdiv (s : State) : Out := binaryOp aluSdiv s

/-- R126: MOD. -/
def execMod (s : State) : Out := binaryOp aluMod s

/-- R127: SMOD. -/
def execSmod (s : State) : Out := binaryOp aluSmod s

/-- R128: ADDMOD. -/
def execAddmod (s : State) : Out := ternaryOp aluAddmod s

/-- R129: MULMOD. -/
def execMulmod (s : State) : Out := ternaryOp aluMulmod s

/-- R130: EXP; the base is popped first. -/
def execExp (s : State) : Out := binaryOp aluExp s

/-- R131: SIGNEXTEND; the byte index is popped first. -/
def execSignextend (s : State) : Out := binaryOp aluSignextend s

end Sys2Proof.Machine
end

