-- ==== Sys2Proof/Machine/Calls.lean ====
section
/-!
DEFINITION. The meanings of CREATE, CALL, DELEGATECALL, STATICCALL, RETURN, REVERT and SELFDESTRUCT
(spec/47_call_create.md R318 to R324).
-/

namespace Sys2Proof.Machine

/-- R318: CALL: the checks of R314 parts 1 to 3, then the common steps with the CALL column of R315. -/
def execCall (s : State) : Out :=
  onTop s fun p =>
    match popCall s.params.callHasGasOperand p.stack with
    | none => raise s p .stackUnderflow
    | some c =>
      if p.isStatic = true ∧ c.value ≠ 0 then raise s p .staticViolation
      else if c.value ≠ 0 ∧ p.address = none then raise s p .missingContextField
      else
        callOp s p c
          { address := some (toAddr c.target), caller := p.address, value := some c.value, isStatic := p.isStatic
            kind := .call c.outOff c.outSize }

/-- R319: DELEGATECALL: no value operand; the child keeps the parent's address, caller, value and static flag. -/
def execDelegatecall (s : State) : Out :=
  onTop s fun p =>
    match popCallNoValue s.params.callHasGasOperand p.stack with
    | none => raise s p .stackUnderflow
    | some c =>
      callOp s p c
        { address := p.address, caller := p.caller, value := p.value, isStatic := p.isStatic
          kind := .delegateCall c.outOff c.outSize }

/-- R320: STATICCALL: no value operand; the child is static. -/
def execStaticcall (s : State) : Out :=
  onTop s fun p =>
    match popCallNoValue s.params.callHasGasOperand p.stack with
    | none => raise s p .stackUnderflow
    | some c =>
      callOp s p c
        { address := some (toAddr c.target), caller := p.address, value := some 0, isStatic := true
          kind := .staticCall c.outOff c.outSize }

/-- R321 parts 11 and 12: the creator is debited and the new account replaces any account at N. -/
def createAccount (w : World) (creator N : Addr) (v : Word) : World :=
  putAccount (debit w creator v) N { balance := v, code := [], storage := [] }

/-- R321 parts 5 and 6: why a CREATE makes no frame. -/
def createBlocked (s : State) (p : Frame) (creator : Addr) (v : Word) : Option NoFrameReason :=
  if s.params.depthLimit < p.depth + 1 then some (.failure .depthLimitExceeded)
  else if (balanceOf s.world creator).toNat < v.toNat then some .insufficientBalance
  else none

/-- R321: CREATE: pop value, offset, size. -/
def execCreate (s : State) : Out :=
  onTop s fun p =>
    match p.stack with
    | v :: off :: size :: st =>
      if p.isStatic then raise s p .staticViolation
      else
        match p.address with
        | none => raise s p .missingContextField
        | some A =>
          match createBlocked s p A v with
          | some _ => withoutFrame s p st
          | none =>
            withGrown s p off.toNat size.toNat fun m =>
              let N := Config.createAddress A (nonceOf s A)
              let k := freshFrame (p.memory.bytesAt off.toNat size.toNat) (some N) (some A) (some v) [] false
                (p.depth + 1) (snapshotOf s) (.create N v)
              .next
                { s with
                  nonce := mapWrite 0 s.nonce A.toNat (nonceOf s A + 1)
                  world := createAccount s.world A N v
                  frames := k :: { p.proceed 1 st with memory := m } :: s.frames.tail }
    | _ => raise s p .stackUnderflow

/-- R322: RETURN: pop offset, size; halt with that memory region. -/
def execRet (s : State) : Out := haltWithOutput .ret s

/-- R323: REVERT: pop offset, size; halt with that memory region, to be rolled back. -/
def execRevert (s : State) : Out := haltWithOutput .revert s

/-- R324: SELFDESTRUCT: the whole balance goes to the beneficiary, the account is marked for removal at the end of the
run, and the frame halts with success and empty output. -/
def execSelfdestruct (s : State) : Out :=
  onTop s fun f =>
    match f.stack with
    | b :: st =>
      if f.isStatic then raise s f .staticViolation
      else
        match f.address with
        | none => raise s f .missingContextField
        | some A =>
          .next
            { s.setTop ((f.proceed 1 st).halt (.ret [])) with
              world := credit (debit s.world A (balanceOf s.world A)) (toAddr b) (balanceOf s.world A)
              destruct := addrInsert A s.destruct }
    | [] => raise s f .stackUnderflow

end Sys2Proof.Machine
end

