-- ==== Sys2Proof/Machine/Compare.lean ====
section
/-!
DEFINITION. The meanings of the comparison, bitwise, byte and shift instructions (spec/41_compare_bitwise.md R140 to
R154). No instruction of this file can fail but by `StackUnderflow` (R140).
-/

namespace Sys2Proof.Machine

/-- R141: LT. -/
def execLt (s : State) : Out := binaryOp aluLt s

/-- R142: GT. -/
def execGt (s : State) : Out := binaryOp aluGt s

/-- R143: SLT. -/
def execSlt (s : State) : Out := binaryOp aluSlt s

/-- R144: SGT. -/
def execSgt (s : State) : Out := binaryOp aluSgt s

/-- R145: EQ. -/
def execEq (s : State) : Out := binaryOp aluEq s

/-- R146: ISZERO. -/
def execIszero (s : State) : Out := unaryOp (fun _ => aluIszero) s

/-- R147: AND. -/
def execAnd (s : State) : Out := binaryOp aluAnd s

/-- R148: OR. -/
def execOr (s : State) : Out := binaryOp aluOr s

/-- R149: XOR. -/
def execXor (s : State) : Out := binaryOp aluXor s

/-- R150: NOT. -/
def execNot (s : State) : Out := unaryOp (fun _ => aluNot) s

/-- R151: BYTE; the index is popped first. -/
def execByte (s : State) : Out := binaryOp aluByte s

/-- R152: SHL; the count is popped first. -/
def execShl (s : State) : Out := binaryOp aluShl s

/-- R153: SHR; the count is popped first. -/
def execShr (s : State) : Out := binaryOp aluShr s

/-- R154: SAR; the count is popped first. -/
def execSar (s : State) : Out := binaryOp aluSar s

end Sys2Proof.Machine
end

