-- ==== Sys2Proof/Machine/Control.lean ====
section
/-!
DEFINITION. The meanings of STOP, JUMPDEST, PC, JUMP and JUMPI (spec/44_control.md R242 to R248).
-/

namespace Sys2Proof.Machine

/-- R242: STOP: halt with success and empty output. -/
def execStop (s : State) : Out := onTop s fun f => .next (s.setTop ((f.proceed 1 f.stack).halt (.ret [])))

/-- R243: JUMPDEST: no effect but the advance. -/
def execJumpdest (s : State) : Out := plainOp s

/-- R244: PC pushes `pc0`, the byte offset of its own opcode byte. -/
def execPc (s : State) : Out := pushOp 1 (fun f => some (BitVec.ofNat 256 f.pc)) s

/-- R246, R247: go to the target `t` with the stack `st` if `t`, the full Word as a natural, is a valid target: pc
becomes `t + 1`, or the run is refused if the pc register does not hold that (R393). -/
def jumpTo (s : State) (f : Frame) (t : Word) (st : List Word) : Out :=
  if t.toNat ∈ f.jumpdests then
    if fitsPc s.params (t.toNat + 1) then .next (s.setTop { f with stack := st, pc := t.toNat + 1 })
    else .refused .registerWidthExceeded
  else raise s f .invalidJumpDestination

/-- R247: JUMP. -/
def execJump (s : State) : Out :=
  onTop s fun f =>
    match f.stack with
    | t :: st => jumpTo s f t st
    | [] => raise s f .stackUnderflow

/-- R248: JUMPI: the target is popped first; with condition 0 the target is not validated. -/
def execJumpi (s : State) : Out :=
  onTop s fun f =>
    match f.stack with
    | t :: c :: st => if holdsWord c = true then jumpTo s f t st else .next (s.setTop (f.proceed 1 st))
    | _ => raise s f .stackUnderflow

end Sys2Proof.Machine
end

