-- ==== Sys2Proof/Machine/Environment.lean ====
section
/-!
DEFINITION. The meanings of the environment, call-data, code, external-code and return-data instructions
(spec/45_environment.md R256 to R279).
-/

namespace Sys2Proof.Machine

/-- R256: ADDRESS: the frame's address. -/
def execAddress (s : State) : Out := pushOp 1 (fun f => f.address.map ofAddr) s

/-- R257: BALANCE: the balance as the world stands now; an absent account has 0. -/
def execBalance (s : State) : Out := unaryOp (fun _ a => balanceOf s.world (toAddr a)) s

/-- R258: ORIGIN: `tx.origin`. -/
def execOrigin (s : State) : Out := pushOp 1 (fun _ => s.tx.origin.map ofAddr) s

/-- R259: CALLER: the frame's caller. -/
def execCaller (s : State) : Out := pushOp 1 (fun f => f.caller.map ofAddr) s

/-- R260: CALLVALUE: the frame's value. -/
def execCallvalue (s : State) : Out := pushOp 1 (fun f => f.value) s

/-- R261: CALLDATALOAD: 32 bytes of call data from offset i, zero-padded. -/
def execCalldataload (s : State) : Out := unaryOp (fun f i => beWord (padRead f.calldata i.toNat 32)) s

/-- R262: CALLDATASIZE: the length of the call data. -/
def execCalldatasize (s : State) : Out := pushOp 1 (fun f => some (lengthWord f.calldata)) s

/-- R263: CALLDATACOPY: call data to memory: pop d, s, n. -/
def execCalldatacopy (s : State) : Out := copyOp (fun f => f.calldata) (fun _ _ _ => true) s

/-- R264: CODESIZE: the length of the executing code. -/
def execCodesize (s : State) : Out := pushOp 1 (fun f => some (lengthWord f.code)) s

/-- R265: CODECOPY: executing code to memory: pop d, s, n. -/
def execCodecopy (s : State) : Out := copyOp (fun f => f.code) (fun _ _ _ => true) s

/-- R266: GASPRICE: `tx.gasprice`. -/
def execGasprice (s : State) : Out := pushOp 1 (fun _ => s.tx.gasprice) s

/-- R267: EXTCODESIZE: the length of an account's code; 0 for an absent account. -/
def execExtcodesize (s : State) : Out := unaryOp (fun _ a => lengthWord (codeOf s.world (toAddr a))) s

/-- R268: EXTCODECOPY: pop a, d, s, n; an account's code to memory, zero-padded. -/
def execExtcodecopy (s : State) : Out :=
  onTop s fun f =>
    match f.stack with
    | a :: d :: src :: n :: st =>
      withGrown s f d.toNat n.toNat fun m =>
        .next (s.setTop
          { f.proceed 1 st with
            memory := m.store d.toNat (padRead (codeOf s.world (toAddr a)) src.toNat n.toNat) })
    | _ => raise s f .stackUnderflow

/-- R269: RETURNDATASIZE: the length of the return data. -/
def execReturndatasize (s : State) : Out := pushOp 1 (fun f => some (lengthWord f.returndata)) s

/-- R270: whether RETURNDATACOPY may read `n` bytes from `src`: always under `zero_pad`, only inside the return data
under `fail`. -/
def returnReadAllowed (p : Params) (f : Frame) (src n : Nat) : Bool :=
  match p.returndatacopyOob with
  | .zeroPad => true
  | .fail => decide (src + n ≤ f.returndata.length)

/-- R270: RETURNDATACOPY: pop d, s, n; return data to memory. -/
def execReturndatacopy (s : State) : Out :=
  copyOp (fun f => f.returndata) (returnReadAllowed s.params) s

/-- R271: the Word EXTCODEHASH gives for a code: 0 for empty code, else its digest. -/
def codeHash (code : Bytes) : Word := if code.length = 0 then 0 else hashWord code

/-- R271: EXTCODEHASH: the hash of an account's code; 0 if it has none. -/
def execExtcodehash (s : State) : Out := unaryOp (fun _ a => codeHash (codeOf s.world (toAddr a))) s

/-- R272: COINBASE: `block.coinbase`. -/
def execCoinbase (s : State) : Out := pushOp 1 (fun _ => s.block.coinbase.map ofAddr) s

/-- R273: TIMESTAMP: `block.timestamp`. -/
def execTimestamp (s : State) : Out := pushOp 1 (fun _ => s.block.timestamp) s

/-- R274: NUMBER: `block.number`. -/
def execNumber (s : State) : Out := pushOp 1 (fun _ => s.block.number) s

/-- R275: DIFFICULTY: `block.difficulty`. -/
def execDifficulty (s : State) : Out := pushOp 1 (fun _ => s.block.difficulty) s

/-- R276: GASLIMIT: `block.gaslimit`. -/
def execGaslimit (s : State) : Out := pushOp 1 (fun _ => s.block.gaslimit) s

/-- R277: CHAINID: `block.chainid`. -/
def execChainid (s : State) : Out := pushOp 1 (fun _ => s.block.chainid) s

/-- R278: SELFBALANCE: the balance of the frame's address. -/
def execSelfbalance (s : State) : Out := pushOp 1 (fun f => f.address.map (balanceOf s.world)) s

/-- R279: BASEFEE: `block.basefee`. -/
def execBasefee (s : State) : Out := pushOp 1 (fun _ => s.block.basefee) s

end Sys2Proof.Machine
end

