-- ==== Sys2Proof/Machine/MemoryOps.lean ====
section
/-!
DEFINITION. The meanings of the memory instructions and the hash instruction (spec/43_memory_ops.md R235 to R239).
-/

namespace Sys2Proof.Machine

/-- R235: MLOAD: `push(be(MemRead(o, 32)))`; grows the memory. -/
def execMload (s : State) : Out :=
  onTop s fun f =>
    match f.stack with
    | o :: st =>
      withGrown s f o.toNat 32 fun m =>
        .next (s.setTop { f.proceed 1 (beWord (f.memory.bytesAt o.toNat 32) :: st) with memory := m })
    | [] => raise s f .stackUnderflow

/-- R236: MSTORE: the offset is popped first; `MemWrite(o, 32, bytes_32(w))`. -/
def execMstore (s : State) : Out :=
  onTop s fun f =>
    match f.stack with
    | o :: w :: st =>
      withGrown s f o.toNat 32 fun m =>
        .next (s.setTop { f.proceed 1 st with memory := m.store o.toNat (wordBytes w) })
    | _ => raise s f .stackUnderflow

/-- R237: MSTORE8: the offset is popped first; one byte, the least significant of w. -/
def execMstore8 (s : State) : Out :=
  onTop s fun f =>
    match f.stack with
    | o :: w :: st =>
      withGrown s f o.toNat 1 fun m =>
        .next (s.setTop { f.proceed 1 st with memory := m.store o.toNat [BitVec.ofNat 8 (w.toNat % 256)] })
    | _ => raise s f .stackUnderflow

/-- R238: MSIZE: `push(msize mod 2^256)`. -/
def execMsize (s : State) : Out := pushOp 1 (fun f => some (BitVec.ofNat 256 f.memory.size)) s

/-- R239: SHA3: `push(be(Hash(MemRead(o, n))))`; the offset is popped first. -/
def execSha3 (s : State) : Out :=
  onTop s fun f =>
    match f.stack with
    | o :: n :: st =>
      withGrown s f o.toNat n.toNat fun m =>
        .next (s.setTop { f.proceed 1 (hashWord (f.memory.bytesAt o.toNat n.toNat) :: st) with memory := m })
    | _ => raise s f .stackUnderflow

end Sys2Proof.Machine
end

