-- ==== Sys2Proof/Machine/StackOps.lean ====
section
/-!
DEFINITION. The meanings of POP and the PUSH, DUP and SWAP families (spec/42_stack.md R165 to R233).
-/

namespace Sys2Proof.Machine

/-- R165: POP. -/
def execPop (s : State) : Out := popOp s

/-- R167: PUSH0 pushes 0; one byte, no immediate. -/
def execPush0 (s : State) : Out := pushOp 1 (fun _ => some 0) s

/-- R168: PUSH1 pushes its immediate; 2 bytes. -/
def execPush1 (imm : Word) (s : State) : Out := pushOp 2 (fun _ => some imm) s

/-- R169: PUSH2 pushes its immediate; 3 bytes. -/
def execPush2 (imm : Word) (s : State) : Out := pushOp 3 (fun _ => some imm) s

/-- R170: PUSH3 pushes its immediate; 4 bytes. -/
def execPush3 (imm : Word) (s : State) : Out := pushOp 4 (fun _ => some imm) s

/-- R171: PUSH4 pushes its immediate; 5 bytes. -/
def execPush4 (imm : Word) (s : State) : Out := pushOp 5 (fun _ => some imm) s

/-- R172: PUSH5 pushes its immediate; 6 bytes. -/
def execPush5 (imm : Word) (s : State) : Out := pushOp 6 (fun _ => some imm) s

/-- R173: PUSH6 pushes its immediate; 7 bytes. -/
def execPush6 (imm : Word) (s : State) : Out := pushOp 7 (fun _ => some imm) s

/-- R174: PUSH7 pushes its immediate; 8 bytes. -/
def execPush7 (imm : Word) (s : State) : Out := pushOp 8 (fun _ => some imm) s

/-- R175: PUSH8 pushes its immediate; 9 bytes. -/
def execPush8 (imm : Word) (s : State) : Out := pushOp 9 (fun _ => some imm) s

/-- R176: PUSH9 pushes its immediate; 10 bytes. -/
def execPush9 (imm : Word) (s : State) : Out := pushOp 10 (fun _ => some imm) s

/-- R177: PUSH10 pushes its immediate; 11 bytes. -/
def execPush10 (imm : Word) (s : State) : Out := pushOp 11 (fun _ => some imm) s

/-- R178: PUSH11 pushes its immediate; 12 bytes. -/
def execPush11 (imm : Word) (s : State) : Out := pushOp 12 (fun _ => some imm) s

/-- R179: PUSH12 pushes its immediate; 13 bytes. -/
def execPush12 (imm : Word) (s : State) : Out := pushOp 13 (fun _ => some imm) s

/-- R180: PUSH13 pushes its immediate; 14 bytes. -/
def execPush13 (imm : Word) (s : State) : Out := pushOp 14 (fun _ => some imm) s

/-- R181: PUSH14 pushes its immediate; 15 bytes. -/
def execPush14 (imm : Word) (s : State) : Out := pushOp 15 (fun _ => some imm) s

/-- R182: PUSH15 pushes its immediate; 16 bytes. -/
def execPush15 (imm : Word) (s : State) : Out := pushOp 16 (fun _ => some imm) s

/-- R183: PUSH16 pushes its immediate; 17 bytes. -/
def execPush16 (imm : Word) (s : State) : Out := pushOp 17 (fun _ => some imm) s

/-- R184: PUSH17 pushes its immediate; 18 bytes. -/
def execPush17 (imm : Word) (s : State) : Out := pushOp 18 (fun _ => some imm) s

/-- R185: PUSH18 pushes its immediate; 19 bytes. -/
def execPush18 (imm : Word) (s : State) : Out := pushOp 19 (fun _ => some imm) s

/-- R186: PUSH19 pushes its immediate; 20 bytes. -/
def execPush19 (imm : Word) (s : State) : Out := pushOp 20 (fun _ => some imm) s

/-- R187: PUSH20 pushes its immediate; 21 bytes. -/
def execPush20 (imm : Word) (s : State) : Out := pushOp 21 (fun _ => some imm) s

/-- R188: PUSH21 pushes its immediate; 22 bytes. -/
def execPush21 (imm : Word) (s : State) : Out := pushOp 22 (fun _ => some imm) s

/-- R189: PUSH22 pushes its immediate; 23 bytes. -/
def execPush22 (imm : Word) (s : State) : Out := pushOp 23 (fun _ => some imm) s

/-- R190: PUSH23 pushes its immediate; 24 bytes. -/
def execPush23 (imm : Word) (s : State) : Out := pushOp 24 (fun _ => some imm) s

/-- R191: PUSH24 pushes its immediate; 25 bytes. -/
def execPush24 (imm : Word) (s : State) : Out := pushOp 25 (fun _ => some imm) s

/-- R192: PUSH25 pushes its immediate; 26 bytes. -/
def execPush25 (imm : Word) (s : State) : Out := pushOp 26 (fun _ => some imm) s

/-- R193: PUSH26 pushes its immediate; 27 bytes. -/
def execPush26 (imm : Word) (s : State) : Out := pushOp 27 (fun _ => some imm) s

/-- R194: PUSH27 pushes its immediate; 28 bytes. -/
def execPush27 (imm : Word) (s : State) : Out := pushOp 28 (fun _ => some imm) s

/-- R195: PUSH28 pushes its immediate; 29 bytes. -/
def execPush28 (imm : Word) (s : State) : Out := pushOp 29 (fun _ => some imm) s

/-- R196: PUSH29 pushes its immediate; 30 bytes. -/
def execPush29 (imm : Word) (s : State) : Out := pushOp 30 (fun _ => some imm) s

/-- R197: PUSH30 pushes its immediate; 31 bytes. -/
def execPush30 (imm : Word) (s : State) : Out := pushOp 31 (fun _ => some imm) s

/-- R198: PUSH31 pushes its immediate; 32 bytes. -/
def execPush31 (imm : Word) (s : State) : Out := pushOp 32 (fun _ => some imm) s

/-- R199: PUSH32 pushes its immediate; 33 bytes. -/
def execPush32 (imm : Word) (s : State) : Out := pushOp 33 (fun _ => some imm) s

/-- R201: DUP1. -/
def execDup1 (s : State) : Out := dupOp 1 s

/-- R202: DUP2. -/
def execDup2 (s : State) : Out := dupOp 2 s

/-- R203: DUP3. -/
def execDup3 (s : State) : Out := dupOp 3 s

/-- R204: DUP4. -/
def execDup4 (s : State) : Out := dupOp 4 s

/-- R205: DUP5. -/
def execDup5 (s : State) : Out := dupOp 5 s

/-- R206: DUP6. -/
def execDup6 (s : State) : Out := dupOp 6 s

/-- R207: DUP7. -/
def execDup7 (s : State) : Out := dupOp 7 s

/-- R208: DUP8. -/
def execDup8 (s : State) : Out := dupOp 8 s

/-- R209: DUP9. -/
def execDup9 (s : State) : Out := dupOp 9 s

/-- R210: DUP10. -/
def execDup10 (s : State) : Out := dupOp 10 s

/-- R211: DUP11. -/
def execDup11 (s : State) : Out := dupOp 11 s

/-- R212: DUP12. -/
def execDup12 (s : State) : Out := dupOp 12 s

/-- R213: DUP13. -/
def execDup13 (s : State) : Out := dupOp 13 s

/-- R214: DUP14. -/
def execDup14 (s : State) : Out := dupOp 14 s

/-- R215: DUP15. -/
def execDup15 (s : State) : Out := dupOp 15 s

/-- R216: DUP16. -/
def execDup16 (s : State) : Out := dupOp 16 s

/-- R218: SWAP1. -/
def execSwap1 (s : State) : Out := swapOp 1 s

/-- R219: SWAP2. -/
def execSwap2 (s : State) : Out := swapOp 2 s

/-- R220: SWAP3. -/
def execSwap3 (s : State) : Out := swapOp 3 s

/-- R221: SWAP4. -/
def execSwap4 (s : State) : Out := swapOp 4 s

/-- R222: SWAP5. -/
def execSwap5 (s : State) : Out := swapOp 5 s

/-- R223: SWAP6. -/
def execSwap6 (s : State) : Out := swapOp 6 s

/-- R224: SWAP7. -/
def execSwap7 (s : State) : Out := swapOp 7 s

/-- R225: SWAP8. -/
def execSwap8 (s : State) : Out := swapOp 8 s

/-- R226: SWAP9. -/
def execSwap9 (s : State) : Out := swapOp 9 s

/-- R227: SWAP10. -/
def execSwap10 (s : State) : Out := swapOp 10 s

/-- R228: SWAP11. -/
def execSwap11 (s : State) : Out := swapOp 11 s

/-- R229: SWAP12. -/
def execSwap12 (s : State) : Out := swapOp 12 s

/-- R230: SWAP13. -/
def execSwap13 (s : State) : Out := swapOp 13 s

/-- R231: SWAP14. -/
def execSwap14 (s : State) : Out := swapOp 14 s

/-- R232: SWAP15. -/
def execSwap15 (s : State) : Out := swapOp 15 s

/-- R233: SWAP16. -/
def execSwap16 (s : State) : Out := swapOp 16 s

end Sys2Proof.Machine
end

