-- ==== Sys2Proof/Machine/StorageLog.lean ====
section
/-!
DEFINITION. The meanings of the storage and log instructions (spec/46_storage_log.md R290 to R297).
-/

namespace Sys2Proof.Machine

/-- R290: SLOAD: the storage of the frame's address. -/
def execSload (s : State) : Out :=
  onTop s fun f =>
    match f.stack with
    | k :: st =>
      match f.address with
      | some A => .next (s.setTop (f.proceed 1 (storageAt s.world A k :: st)))
      | none => raise s f .missingContextField
    | [] => raise s f .stackUnderflow

/-- R291: SSTORE: the key is popped first. -/
def execSstore (s : State) : Out :=
  onTop s fun f =>
    match f.stack with
    | k :: v :: st =>
      if f.isStatic then raise s f .staticViolation
      else
        match f.address with
        | some A => .next { s.setTop (f.proceed 1 st) with world := sstore s.world A k v }
        | none => raise s f .missingContextField
    | _ => raise s f .stackUnderflow

/-- R292: LOGn: pop the offset, the size, then n topics, recorded in pop order; append the entry. -/
def logOp (n : Nat) (s : State) : Out :=
  onTop s fun f =>
    match f.stack with
    | o :: size :: st =>
      if st.length < n then raise s f .stackUnderflow
      else if f.isStatic then raise s f .staticViolation
      else
        match f.address with
        | some A =>
          withGrown s f o.toNat size.toNat fun m =>
            .next
              { s.setTop { f.proceed 1 (st.drop n) with memory := m } with
                logs := s.logs ++
                  [{ address := A, data := f.memory.bytesAt o.toNat size.toNat, topics := st.take n }] }
        | none => raise s f .missingContextField
    | _ => raise s f .stackUnderflow

/-- R293: LOG0. -/
def execLog0 (s : State) : Out := logOp 0 s

/-- R294: LOG1. -/
def execLog1 (s : State) : Out := logOp 1 s

/-- R295: LOG2. -/
def execLog2 (s : State) : Out := logOp 2 s

/-- R296: LOG3. -/
def execLog3 (s : State) : Out := logOp 3 s

/-- R297: LOG4. -/
def execLog4 (s : State) : Out := logOp 4 s

end Sys2Proof.Machine
end

