-- ==== Sys2Proof/Machine/Fetch.lean ====
section
/-!
DEFINITION. What the core does before an instruction is executed (spec/44_control.md R240 parts 1 to 4) and instead of
one (the return transition and the end of a run, spec/70_reset_and_hazards.md R387), and the loading of a program that
the host's tools use.
-/

namespace Sys2Proof.Machine

/-- What the core does in one step. -/
inductive Phase where
  /-- execute the fetched instruction in this state -/
  | execute (i : Instr) (s : State)
  /-- the step is this -/
  | answer (o : Out)

/-- R240 part 3, R393: count the fetch if STEP_LIMIT is set; none if the count would pass the limit. -/
def countFetch (s : State) : Option State :=
  match s.params.stepLimit with
  | none => some s
  | some limit => if limit < s.steps + 1 then none else some { s with steps := s.steps + 1 }

/-- R240 parts 2 to 5: fetch and decode at the running frame's pc; the run is refused where the pc register does not hold
the pc past the instruction (R393; log entry 19). The meaning of the instruction makes the advance itself. -/
def fetchPhase (s : State) (f : Frame) : Phase :=
  match decode (f.code.drop f.pc) with
  | .endOfCode => .answer (.next (s.setTop (f.halt (.ret []))))
  | .unknownOpcode _ =>
    match countFetch s with
    | some s' => .answer (raise s' f .unknownOpcode)
    | none => .answer (.refused .stepLimitExceeded)
  | .instr i _ =>
    match countFetch s with
    | some s' =>
      if fitsPc s.params (f.pc + i.length) then .execute i s' else .answer (.refused .registerWidthExceeded)
    | none => .answer (.refused .stepLimitExceeded)

/-- R387: a running frame fetches; a halted child makes its return transition; a halted top-level frame ends the run. -/
def runPhase (s : State) : Phase :=
  match s.frames with
  | [] => .answer (.fault .noRunningFrame)
  | f :: below =>
    match f.status with
    | .running => fetchPhase s f
    | .halted o =>
      match below with
      | [] => .answer (.next (finish s o f))
      | p :: rest => .answer (returnTransition s o f p rest)

/-- R385: the core acts only while the run status is Running; otherwise nothing changes (log entry 3). -/
def nextPhase (s : State) : Phase :=
  match s.runStatus with
  | .idle => .answer (.next s)
  | .done => .answer (.next s)
  | .running => runPhase s

/-- R326: the top-level frame of a run, from the code input, the transaction context and the world at launch. -/
def topFrame (code : Bytes) (tx : TxContext) (world : World) : Frame :=
  freshFrame code tx.toAddr tx.fromAddr tx.value (tx.data.getD []) false 0
    { world := world, destruct := [], logCount := 0 } .top

/-- A code with the bytes `bs` placed at offset `at_`, padded with zeros up to there. -/
def placeAt (code : Bytes) (at_ : Nat) (bs : Bytes) : Bytes :=
  padRead code 0 at_ ++ bs ++ code.drop (at_ + bs.length)

/-- The frames after the bytes of one instruction are placed where the next step fetches: at the running frame's pc,
or, where no run is loaded, at offset 0 of a fresh top-level frame (log entry 11). -/
def framesWithInstr (s : State) (bs : Bytes) : List Frame :=
  match s.frames with
  | [] => [topFrame bs s.tx s.world]
  | f :: below =>
    { f with
      code := placeAt f.code f.pc bs
      jumpdests := jumpdests (placeAt f.code f.pc bs)
      status := .running } :: below

end Sys2Proof.Machine
end

