-- ==== Sys2Proof/Machine/Step.lean ====
section
/-!
DEFINITION. One step of the machine (spec/70_reset_and_hazards.md R387): the execution of one instruction of the running
frame, or one return transition, or the end of the run (log entry 2); and the placing of one instruction where the
next step fetches it.
-/

namespace Sys2Proof.Machine

/-- R387: one step. -/
def step (s : State) : Host.Outcome State Fault Refusal :=
  match nextPhase s with
  | .execute i s' => exec i s'
  | .answer o => o

/-- `s` with one instruction placed where `step` fetches next, and the run started if none runs (log entry 11). -/
def State.withFetchWord (s : State) (nbits w : Nat) : State :=
  { s with runStatus := .running, frames := framesWithInstr s (tableBytes nbits w) }

end Sys2Proof.Machine
end

