-- ==== Sys2Proof/Machine/HostPort.lean ====
section
/-!
DEFINITION. The host's side of the interface (spec/70_reset_and_hazards.md R380 to R389): reset, LOAD, START and the
reading of the Result, as functions on the state (log entry 10). `step` never calls them: the host and the core never
act at the same time (R385).
-/

namespace Sys2Proof.Machine

/-- R55: what the host gives for one account. -/
structure AccountInput where
  balance : Option Word
  code : Option Bytes
  deriving DecidableEq, Repr

/-- R55: the launch inputs, the arguments of `execute(code, tx, block, worldState)`. -/
structure LaunchInputs where
  code : Bytes
  tx : TxContext
  block : BlockContext
  state : List (Addr × AccountInput)
  deriving DecidableEq, Repr

/-- R55: the account built from the host's input: the given balance or 0, the given code or empty, all-zero storage. -/
def AccountInput.account (a : AccountInput) : Account :=
  { balance := a.balance.getD 0, code := a.code.getD [], storage := [] }

/-- R55, R386: `world` built from `state`; a later entry for the same address replaces an earlier one (log entry 18). -/
def buildWorld (state : List (Addr × AccountInput)) : World :=
  state.foldl (fun w entry => putAccount w entry.1 entry.2.account) []

/-- R393: the implementation's length registers hold the length of every byte sequence the host gives. -/
def LaunchInputs.fit (inputs : LaunchInputs) (p : Params) : Bool :=
  fitsLength p inputs.code.length && fitsLength p (inputs.tx.data.getD []).length
    && inputs.state.all fun entry => fitsLength p (entry.2.code.getD []).length

/-- R386 LOAD, allowed while the run status is Idle or Done: the whole run state is rebuilt from the inputs. The status
is Idle until START. Inputs whose lengths the registers do not hold are refused (R393; log entry 19). -/
def load (inputs : LaunchInputs) (s : State) : Option State :=
  if s.runStatus = .running ∨ inputs.fit s.params = false then none
  else
    some
      { s with
        runStatus := .idle
        frames := [topFrame inputs.code inputs.tx (buildWorld inputs.state)]
        world := buildWorld inputs.state
        destruct := []
        nonce := []
        logs := []
        tx := inputs.tx
        block := inputs.block
        steps := 0
        result := none
        lastFailure := 0 }

/-- R387 START: the run status becomes Running. It needs a loaded run. -/
def start (s : State) : Option State :=
  if s.runStatus = .idle ∧ s.frames ≠ [] then some { s with runStatus := .running } else none

/-- R385: LOAD and START together, the launch. -/
def launch (inputs : LaunchInputs) (s : State) : Option State := (load inputs s).bind start

/-- R57, R389: the host reads the Result of a finished run; the status becomes Idle ("Result already read"), the Result
stays until the next LOAD or reset. -/
def readResult (s : State) : Option (Result × State) :=
  match s.runStatus, s.result with
  | .done, some r => some (r, { s with runStatus := .idle })
  | _, _ => none

/-- R380: reset, at any time. The implementation's parameters are no state and stay; the count of free values drawn
stays, so that a later draw is a fresh one. -/
def resetEvent (s : State) : State := { State.reset with params := s.params, freeCount := s.freeCount }

end Sys2Proof.Machine
end

