-- ==== Sys2Proof/Safety.lean ====
section
/-!
DEFINITION. What counts as a safe state: the invariants the spec states of every reachable state, in the terms the
statements use. `State.Inv` gathers them; the statements say that reset and launch establish it, that every step
keeps it, and that no step faults from it.
-/

namespace Sys2Proof.Machine

/-- R109: the instruction boundaries of a code, reached from offset 0 by whole instructions (R103). -/
inductive Boundary (code : Bytes) : Nat → Prop where
  | start : Boundary code 0
  | advance {p : Nat} {op : Byte} : Boundary code p → code[p]? = some op → Boundary code (p + 1 + immWidth op)

/-- R44, R45: an account's storage in canonical form: keys rising, no entry for a key that reads 0, every key a Word. -/
abbrev Account.wf (a : Account) : Prop :=
  MapSorted a.storage ∧ ∀ e ∈ a.storage, e.2 ≠ 0 ∧ e.1 < 2 ^ 256

/-- R43: the world in canonical form: addresses rising, every key an address, every account in canonical form. -/
abbrev worldWf (w : World) : Prop := MapSorted w ∧ ∀ e ∈ w, e.2.wf ∧ e.1 < 2 ^ 160

/-- R47: the set of marked accounts in canonical form. -/
abbrev addrSetWf (set : List Addr) : Prop := set.Pairwise (fun A B => A.toNat < B.toNat)

/-- R48: the nonces in canonical form: addresses rising, no entry for a nonce that reads 0. -/
abbrev nonceWf (m : SMap Nat) : Prop := MapSorted m ∧ ∀ e ∈ m, e.2 ≠ 0

/-- R393: the length registers hold the length of every account's code. -/
abbrev codesFit (p : Params) (w : World) : Prop := ∀ e ∈ w, fitsLength p e.2.code.length = true

/-- What the spec says of every frame of every reachable state. -/
structure FrameInv (p : Params) (f : Frame) : Prop where
  /-- R71: the size is a multiple of 32, bytes at or above it are 0, the cells are in canonical form -/
  memory : f.memory.wf
  /-- R79: the memory is within MEM_CAPACITY -/
  capacity : fitsCapacity p f.memory.size = true
  /-- R31: the targets are the scan of the code -/
  targets : f.jumpdests = jumpdests f.code
  /-- R109: pc is on an instruction boundary of the forward scan -/
  boundary : Boundary f.code f.pc
  /-- R30: pc never exceeds `len(code) + 32` -/
  pcBound : f.pc ≤ f.code.length + 32
  /-- R29: at most STACK_LIMIT Words -/
  stack : f.stack.length ≤ p.stackLimit
  /-- R38: at most DEPTH_LIMIT -/
  depth : f.depth ≤ p.depthLimit
  /-- R50: the captured world is a world -/
  snapshotWorld : worldWf f.snapshot.world
  snapshotDestruct : addrSetWf f.snapshot.destruct
  /-- R393: the registers hold the pc and every length of the frame -/
  pcWidth : fitsPc p f.pc = true
  codeLength : fitsLength p f.code.length = true
  calldataLength : fitsLength p f.calldata.length = true
  returndataLength : fitsLength p f.returndata.length = true
  outputLength : ∀ o, f.status = .halted o → fitsLength p o.output.length = true
  snapshotCodes : codesFit p f.snapshot.world

/-- R42: what holds between the frames, the running one first: the last is the top-level frame (depth 0, never static);
every other was made by a call or creation of the one below it, has depth one more (R38), is static if that one is
(R315) and is not static if a CREATE made it (R37); and the one below is suspended, Running, with room for the Word its
child will give it (R355). -/
def ChainInv (p : Params) : List Frame → Prop
  | [] => True
  | [f] => f.kind = .top ∧ f.depth = 0 ∧ f.isStatic = false
  | k :: f :: below =>
    k.kind ≠ .top ∧ k.depth = f.depth + 1 ∧ (f.isStatic = true → k.isStatic = true)
      ∧ (∀ N v, k.kind = .create N v → k.isStatic = false) ∧ f.status = .running ∧ f.stack.length < p.stackLimit
      ∧ ChainInv p (f :: below)

/-- The invariant of the machine. -/
structure State.Inv (s : State) : Prop where
  frames : ∀ f ∈ s.frames, FrameInv s.params f
  chain : ChainInv s.params s.frames
  /-- R42: a running machine has a running frame -/
  running : s.runStatus = .running → s.frames ≠ []
  /-- R57: `Done(Result)` -/
  done : s.runStatus = .done → s.result ≠ none
  world : worldWf s.world
  destruct : addrSetWf s.destruct
  nonce : nonceWf s.nonce
  /-- R393: and the registers hold the length of every account's code -/
  codes : codesFit s.params s.world
  /-- R49: at most four topics; R393: a length the registers hold -/
  logs : ∀ l ∈ s.logs, l.topics.length ≤ 4 ∧ fitsLength s.params l.data.length = true
  /-- R361: since a static frame was entered, `world`, `destruct` and `logs` have not changed -/
  static : ∀ f ∈ s.frames, f.isStatic = true → f.snapshot = snapshotOf s
  /-- R393: the count never passes the limit -/
  steps : ∀ limit, s.params.stepLimit = some limit → s.steps ≤ limit

end Sys2Proof.Machine
end

