-- ==== Sys2Proof/Certificates/Slice0/Obligations.lean ====
section
/-!
DEFINITION. The statements for the provers, from the spec's numbered rules: `def Obligations.<Name> : Prop`. Results are
written as whole states (`{ s with frames := g :: fs }` changes the running frame and nothing else; `{ f with … }`
changes the named fields of the frame and nothing else), so each is also the instruction's frame and its completion.
In front of them stand the few shapes they share. Opcode bytes are those of the instruction rules; R104 marks all but
0x00, 0x01, 0x03, 0x0a, 0x5b and 0x60 as the spec's own, from general knowledge (log entry 20).
-/

namespace Sys2Proof.Rules

open Sys2Proof.Machine

/-- R350: the state `s` after its running frame `f` fails with the kind `k`: only the frame's status changes. -/
def afterFailure (s : State) (f : Frame) (fs : List Frame) (k : FailureKind) : State :=
  { s with frames := { f with status := .halted (.fail k) } :: fs }

/-- R101, format OP: the instruction is the one byte `op`, whatever bytes follow. -/
def OneByte (i : Instr) (op : Byte) : Prop := encode i = [op] ∧ ∀ rest, decode (op :: rest) = .instr i rest

/-- R120, R140: pops a, b (a was on top), pushes `g a b`, advances by 1; fails with StackUnderflow below depth 2. -/
def BinaryRule (i : Instr) (op : Byte) (g : Word → Word → Word) : Prop :=
  OneByte i op ∧
    ∀ (s : State) (f : Frame) (fs : List Frame), s.frames = f :: fs →
      (∀ a b st, f.stack = a :: b :: st →
        exec i s = .next { s with frames := { f with stack := g a b :: st, pc := f.pc + 1 } :: fs }) ∧
      (f.stack.length < 2 → exec i s = .next (afterFailure s f fs .stackUnderflow))

/-- R120: as `BinaryRule` with three operands. -/
def TernaryRule (i : Instr) (op : Byte) (g : Word → Word → Word → Word) : Prop :=
  OneByte i op ∧
    ∀ (s : State) (f : Frame) (fs : List Frame), s.frames = f :: fs →
      (∀ a b c st, f.stack = a :: b :: c :: st →
        exec i s = .next { s with frames := { f with stack := g a b c :: st, pc := f.pc + 1 } :: fs }) ∧
      (f.stack.length < 3 → exec i s = .next (afterFailure s f fs .stackUnderflow))

/-- Pops a, pushes `g s f a` where `s` is the state and `f` its running frame; fails with StackUnderflow at depth 0. -/
def UnaryRule (i : Instr) (op : Byte) (g : State → Frame → Word → Word) : Prop :=
  OneByte i op ∧
    ∀ (s : State) (f : Frame) (fs : List Frame), s.frames = f :: fs →
      (∀ a st, f.stack = a :: st →
        exec i s = .next { s with frames := { f with stack := g s f a :: st, pc := f.pc + 1 } :: fs }) ∧
      (f.stack = [] → exec i s = .next (afterFailure s f fs .stackUnderflow))

/-- Pops nothing, pushes the Word `v s f`, advances by `len`; fails with StackOverflow on a full stack, and else with
MissingContextField where there is no such Word (R255). -/
def PushEffect (i : Instr) (len : Nat) (v : State → Frame → Option Word) : Prop :=
  ∀ (s : State) (f : Frame) (fs : List Frame), s.frames = f :: fs →
    (f.stack.length < s.params.stackLimit → ∀ w, v s f = some w →
      exec i s = .next { s with frames := { f with stack := w :: f.stack, pc := f.pc + len } :: fs }) ∧
    (f.stack.length < s.params.stackLimit → v s f = none →
      exec i s = .next (afterFailure s f fs .missingContextField)) ∧
    (s.params.stackLimit ≤ f.stack.length → exec i s = .next (afterFailure s f fs .stackOverflow))

/-- `PushEffect` of a one-byte instruction. -/
def PushRule (i : Instr) (op : Byte) (v : State → Frame → Option Word) : Prop := OneByte i op ∧ PushEffect i 1 v

/-- R200: DUPn is byte 0x7f + n and pushes `x[n]`, here `f.stack[n - 1]?`; underflow is tested before overflow. -/
def DupRule (i : Instr) (n : Nat) : Prop :=
  OneByte i (BitVec.ofNat 8 (0x7f + n)) ∧
    ∀ (s : State) (f : Frame) (fs : List Frame), s.frames = f :: fs →
      (∀ w, f.stack[n - 1]? = some w → f.stack.length < s.params.stackLimit →
        exec i s = .next { s with frames := { f with stack := w :: f.stack, pc := f.pc + 1 } :: fs }) ∧
      (f.stack.length < n → exec i s = .next (afterFailure s f fs .stackUnderflow)) ∧
      (n ≤ f.stack.length → s.params.stackLimit ≤ f.stack.length →
        exec i s = .next (afterFailure s f fs .stackOverflow))

/-- R217: SWAPn is byte 0x8f + n and exchanges `x[1]` and `x[n+1]`: in `a :: mid ++ b :: low` with n - 1 Words in
`mid`, a and b change places and every other Word keeps its own. -/
def SwapRule (i : Instr) (n : Nat) : Prop :=
  OneByte i (BitVec.ofNat 8 (0x8f + n)) ∧
    ∀ (s : State) (f : Frame) (fs : List Frame), s.frames = f :: fs →
      (∀ a mid b low, f.stack = a :: (mid ++ b :: low) → mid.length + 1 = n →
        exec i s = .next { s with frames := { f with stack := b :: (mid ++ a :: low), pc := f.pc + 1 } :: fs }) ∧
      (f.stack.length < n + 1 → exec i s = .next (afterFailure s f fs .stackUnderflow))

/-- R73: the memory size after an access of `n` bytes at `off`: `max(msize, ceil((off + n) / 32) * 32)` in exact
arithmetic, unless n = 0 and ZERO_LENGTH_GROWS is false. -/
def sizeAfter (p : Params) (size off n : Nat) : Nat :=
  if n = 0 ∧ p.zeroLengthGrows = false then size else max size ((off + n + 31) / 32 * 32)

/-- R73: the memory of `f` after `grow(off, n)`: no byte changes. -/
def grown (s : State) (f : Frame) (off n : Nat) : Memory :=
  { f.memory with size := sizeAfter s.params f.memory.size off n }

/-- R75: the memory of `f` after `MemWrite(off, len(v), v)`. What its bytes are is the statement MemoryUnit. -/
def written (s : State) (f : Frame) (off : Nat) (v : Bytes) : Memory := (grown s f off v.length).store off v

/-- R79: the grown memory is within MEM_CAPACITY, if there is one. -/
def CapacityFits (s : State) (f : Frame) (off n : Nat) : Prop :=
  ∀ capacity, s.params.memCapacity = some capacity → sizeAfter s.params f.memory.size off n ≤ capacity

/-- R393: the length registers hold the length `n`, if they have a bound. -/
def LengthFits (s : State) (n : Nat) : Prop := ∀ limit, s.params.lengthLimit = some limit → n ≤ limit

/-- R393: the pc register holds `n`, if it has a bound. -/
def PcFits (s : State) (n : Nat) : Prop := ∀ limit, s.params.pcLimit = some limit → n ≤ limit

/-- R79, R393: an access of `n` bytes at `off` is within the implementation's bounds. -/
def Fits (s : State) (f : Frame) (off n : Nat) : Prop := LengthFits s n ∧ CapacityFits s f off n

/-- R79, R393: `o` refuses the access of `n` bytes at `off` where it is not within the bounds. -/
def AccessRefused (s : State) (f : Frame) (off n : Nat) (o : Out) : Prop :=
  (¬LengthFits s n → o = .refused .registerWidthExceeded) ∧
  (LengthFits s n → ¬CapacityFits s f off n → o = .refused .memCapacityExceeded)

/-- R81: `bytes_32(w)`: byte i is `bits[255 - 8i : 248 - 8i]` of w. -/
def bigEndian (w : Word) : Bytes := (List.range 32).map fun i => w.extractLsb' (248 - 8 * i) 8

/-- R309: the stack of a call under the parameter CALL_HAS_GAS_OPERAND: a leading Word g, ignored, only if it is set. -/
def callStack (s : State) (g : Word) (operands : List Word) : List Word :=
  if s.params.callHasGasOperand then g :: operands else operands

/-- R306: what every child of the frame `p` in the state `s` has in common; the other fields are arguments. -/
def childFrame (s : State) (p : Frame) (code : Bytes) (address caller : Option Addr) (value : Option Word)
    (calldata : Bytes) (isStatic : Bool) (kind : FrameKind) : Frame :=
  { code := code, jumpdests := jumpdests code, pc := 0, stack := [], memory := { cells := [], size := 0 }
    address := address, caller := caller, value := value, calldata := calldata, isStatic := isStatic
    depth := p.depth + 1, returndata := [], status := .running
    snapshot := { world := s.world, destruct := s.destruct, logCount := s.logs.length }, kind := kind }

/-- R50: what `rollback` leaves of `s`: `world` and `destruct` as captured, and `logs` cut only under LOGS_ROLL_BACK. -/
def rolledBack (s : State) (snap : Snapshot) (frames : List Frame) : State :=
  { s with
    frames := frames
    world := snap.world
    destruct := snap.destruct
    logs := if s.params.logsRollBack = true then s.logs.take snap.logCount else s.logs }

/-- R313: the parent after a call or creation that made no frame: 0 pushed, empty return data. -/
def noFrame (p : Frame) (rest : List Word) : Frame := { p with stack := 0 :: rest, pc := p.pc + 1, returndata := [] }

/-- R240 part 3: what the fetch of an instruction changes: `steps` counts it, if STEP_LIMIT is set. -/
def afterFetch (s : State) : State :=
  match s.params.stepLimit with
  | none => s
  | some _ => { s with steps := s.steps + 1 }

/-- R393: the fetch does not pass STEP_LIMIT, if it is set. -/
def MayFetch (s : State) : Prop := ∀ limit, s.params.stepLimit = some limit → s.steps + 1 ≤ limit

/-- R393: the length registers hold the length of every byte sequence the host gives. -/
def InputsFit (s : State) (inputs : LaunchInputs) : Prop :=
  LengthFits s inputs.code.length ∧ LengthFits s (inputs.tx.data.getD []).length ∧
    ∀ A a, (A, a) ∈ inputs.state → LengthFits s (a.code.getD []).length

/-- R387: the core takes a step of the running frame `f`, the frames `fs` under it. -/
def Running (s : State) (f : Frame) (fs : List Frame) : Prop :=
  s.runStatus = .running ∧ s.frames = f :: fs ∧ f.status = .running

/-- R350 part 1: executing `i` fails the running frame `f` with the kind `k`. -/
def Raises (i : Instr) (s : State) (f : Frame) (fs : List Frame) (k : FailureKind) : Prop :=
  exec i s = .next (afterFailure s f fs k)

/-- R342: the required depth of every instruction. -/
def requiredDepth (p : Params) : Instr → Nat
  | .pop | .iszero | .not | .balance | .calldataload | .extcodesize | .extcodehash | .mload | .sload | .jump
  | .selfdestruct => 1
  | .add | .mul | .sub | .div | .sdiv | .mod | .smod | .exp | .signextend | .lt | .gt | .slt | .sgt | .eq | .and | .or
  | .xor | .byte | .shl | .shr | .sar | .sha3 | .mstore | .mstore8 | .sstore | .jumpi | .ret | .revert => 2
  | .addmod | .mulmod | .calldatacopy | .codecopy | .returndatacopy | .create => 3
  | .extcodecopy => 4
  | .dup1 => 1 | .dup2 => 2 | .dup3 => 3 | .dup4 => 4 | .dup5 => 5 | .dup6 => 6 | .dup7 => 7 | .dup8 => 8
  | .dup9 => 9 | .dup10 => 10 | .dup11 => 11 | .dup12 => 12 | .dup13 => 13 | .dup14 => 14 | .dup15 => 15 | .dup16 => 16
  | .swap1 => 2 | .swap2 => 3 | .swap3 => 4 | .swap4 => 5 | .swap5 => 6 | .swap6 => 7 | .swap7 => 8 | .swap8 => 9
  | .swap9 => 10 | .swap10 => 11 | .swap11 => 12 | .swap12 => 13 | .swap13 => 14 | .swap14 => 15 | .swap15 => 16
  | .swap16 => 17
  | .log0 => 2 | .log1 => 3 | .log2 => 4 | .log3 => 5 | .log4 => 6
  | .call => if p.callHasGasOperand then 7 else 6
  | .delegatecall | .staticcall => if p.callHasGasOperand then 6 else 5
  | .stop | .jumpdest | .pc | .msize | .address | .origin | .caller | .callvalue | .calldatasize | .codesize | .gasprice
  | .returndatasize | .coinbase | .timestamp | .number | .difficulty | .gaslimit | .chainid | .selfbalance | .basefee
  | .push0 | .push1 _ | .push2 _ | .push3 _ | .push4 _ | .push5 _ | .push6 _ | .push7 _ | .push8 _ | .push9 _
  | .push10 _ | .push11 _ | .push12 _ | .push13 _ | .push14 _ | .push15 _ | .push16 _ | .push17 _ | .push18 _
  | .push19 _ | .push20 _ | .push21 _ | .push22 _ | .push23 _ | .push24 _ | .push25 _ | .push26 _ | .push27 _
  | .push28 _ | .push29 _ | .push30 _ | .push31 _ | .push32 _ => 0

/-- R343: the instructions that push without popping. -/
def pushesOnly : Instr → Bool
  | .push0 | .push1 _ | .push2 _ | .push3 _ | .push4 _ | .push5 _ | .push6 _ | .push7 _ | .push8 _ | .push9 _
  | .push10 _ | .push11 _ | .push12 _ | .push13 _ | .push14 _ | .push15 _ | .push16 _ | .push17 _ | .push18 _
  | .push19 _ | .push20 _ | .push21 _ | .push22 _ | .push23 _ | .push24 _ | .push25 _ | .push26 _ | .push27 _
  | .push28 _ | .push29 _ | .push30 _ | .push31 _ | .push32 _
  | .dup1 | .dup2 | .dup3 | .dup4 | .dup5 | .dup6 | .dup7 | .dup8 | .dup9 | .dup10 | .dup11 | .dup12 | .dup13
  | .dup14 | .dup15 | .dup16
  | .pc | .msize | .address | .origin | .caller | .callvalue | .calldatasize | .codesize | .gasprice | .returndatasize
  | .coinbase | .timestamp | .number | .difficulty | .gaslimit | .chainid | .selfbalance | .basefee => true
  | .stop | .add | .mul | .sub | .div | .sdiv | .mod | .smod | .addmod | .mulmod | .exp | .signextend | .lt | .gt | .slt
  | .sgt | .eq | .iszero | .and | .or | .xor | .not | .byte | .shl | .shr | .sar | .sha3 | .balance | .calldataload
  | .calldatacopy | .codecopy | .extcodesize | .extcodecopy | .returndatacopy | .extcodehash | .pop | .mload | .mstore
  | .mstore8 | .sload | .sstore | .jump | .jumpi | .jumpdest | .swap1 | .swap2 | .swap3 | .swap4 | .swap5 | .swap6
  | .swap7 | .swap8 | .swap9 | .swap10 | .swap11 | .swap12 | .swap13 | .swap14 | .swap15 | .swap16 | .log0 | .log1
  | .log2 | .log3 | .log4 | .create | .call | .ret | .delegatecall | .staticcall | .revert | .selfdestruct => false

/-- R346, R361: what static mode forbids; `stack` is the stack, for the value operand of CALL. -/
def forbiddenWhenStatic (p : Params) (stack : List Word) : Instr → Bool
  | .sstore | .log0 | .log1 | .log2 | .log3 | .log4 | .create | .selfdestruct => true
  | .call => decide (stack[if p.callHasGasOperand then 2 else 1]? ≠ some 0)
  | _ => false

/-- R347: the instruction reads a context value that is absent. -/
def readsAbsent (s : State) (f : Frame) : Instr → Bool
  | .origin => s.tx.origin.isNone
  | .gasprice => s.tx.gasprice.isNone
  | .coinbase => s.block.coinbase.isNone
  | .timestamp => s.block.timestamp.isNone
  | .number => s.block.number.isNone
  | .difficulty => s.block.difficulty.isNone
  | .gaslimit => s.block.gaslimit.isNone
  | .chainid => s.block.chainid.isNone
  | .basefee => s.block.basefee.isNone
  | .caller => f.caller.isNone
  | .callvalue => f.value.isNone
  | .address | .selfbalance | .sload | .sstore | .log0 | .log1 | .log2 | .log3 | .log4 | .create | .selfdestruct =>
    f.address.isNone
  | .call => f.address.isNone && decide (f.stack[if s.params.callHasGasOperand then 2 else 1]? ≠ some 0)
  | _ => false

/-- The bytes of its own frame's memory that an instruction stores to: offset and length, from its operands as they
stand on the stack. The instructions not named store nothing (a call's output is stored at its child's return). -/
def storeRegion : Instr → List Word → Option (Nat × Nat)
  | .mstore, o :: _ => some (o.toNat, 32)
  | .mstore8, o :: _ => some (o.toNat, 1)
  | .calldatacopy, d :: _ :: n :: _ => some (d.toNat, n.toNat)
  | .codecopy, d :: _ :: n :: _ => some (d.toNat, n.toNat)
  | .returndatacopy, d :: _ :: n :: _ => some (d.toNat, n.toNat)
  | .extcodecopy, _ :: d :: _ :: n :: _ => some (d.toNat, n.toNat)
  | _, _ => none

/-- R292: LOGn for one n. -/
def LogRule (i : Instr) (n : Nat) : Prop :=
  OneByte i (BitVec.ofNat 8 (0xa0 + n)) ∧
  ∀ (s : State) (f : Frame) (fs : List Frame), s.frames = f :: fs →
    (∀ o size topics st A, f.stack = o :: size :: (topics ++ st) → topics.length = n → f.isStatic = false →
      f.address = some A → Fits s f o.toNat size.toNat →
      exec i s = .next { s with
        logs := s.logs ++
          [{ address := A, data := (List.range size.toNat).map fun j => f.memory.byteAt (o.toNat + j), topics := topics }]
        frames := { f with stack := st, pc := f.pc + 1, memory := grown s f o.toNat size.toNat } :: fs }) ∧
    (f.stack.length < n + 2 → exec i s = .next (afterFailure s f fs .stackUnderflow)) ∧
    (n + 2 ≤ f.stack.length → f.isStatic = true → exec i s = .next (afterFailure s f fs .staticViolation)) ∧
    (n + 2 ≤ f.stack.length → f.isStatic = false → f.address = none →
      exec i s = .next (afterFailure s f fs .missingContextField))

/-- `g` is, in the frame list `after`, the frame that executed: on top, or just under the child it made. -/
def OwnFrame (after : List Frame) (g : Frame) (fs : List Frame) : Prop :=
  after = g :: fs ∨ ∃ k, after = k :: g :: fs

end Sys2Proof.Rules

section
open Sys2Proof Sys2Proof.Machine Sys2Proof.Rules

/-! ## Encoding and decoding -/

/-- R100 to R102, R110: what the encoder writes for a well-formed instruction decodes to that instruction, whatever
bytes follow it, and takes the instruction's length, at most 33 bytes. That an immediate is a Word within a bound is
the model's choice (log entry 21). -/
def Obligations.DecodeOfEncode : Prop :=
  ∀ (i : Instr) (rest : Bytes), i.wf = true →
    decode (encode i ++ rest) = .instr i rest ∧ (encode i).length = i.length ∧ i.length ≤ 33

/-- R102: every instruction the decoder answers is well-formed; encoding it gives the bytes it was read from,
zero-padded where they run past the end of the code (the form of a truncated PUSH: log entry 21). -/
def Obligations.EncodeOfDecode : Prop :=
  ∀ (bs rest : Bytes) (i : Instr), decode bs = .instr i rest →
    i.wf = true ∧ rest = bs.drop i.length ∧ encode i = padRead bs 0 i.length

/-- R106, R345: the 117 bytes that are no opcode are exactly the listed ones; fetching one fails the frame with
UnknownOpcode and changes nothing else but the count of R240 part 3. -/
def Obligations.UnknownOpcodes : Prop :=
  (∀ (op : Byte) (rest : Bytes),
    decode (op :: rest) = .unknownOpcode op ↔
      (0x0c ≤ op.toNat ∧ op.toNat ≤ 0x0f) ∨ (0x1e ≤ op.toNat ∧ op.toNat ≤ 0x1f) ∨ (0x21 ≤ op.toNat ∧ op.toNat ≤ 0x2f) ∨
        op.toNat = 0x40 ∨ (0x49 ≤ op.toNat ∧ op.toNat ≤ 0x4f) ∨ op.toNat = 0x5a ∨
        (0x5c ≤ op.toNat ∧ op.toNat ≤ 0x5e) ∨ (0xa5 ≤ op.toNat ∧ op.toNat ≤ 0xef) ∨ op.toNat = 0xf2 ∨
        (0xf5 ≤ op.toNat ∧ op.toNat ≤ 0xf9) ∨ (0xfb ≤ op.toNat ∧ op.toNat ≤ 0xfc) ∨ op.toNat = 0xfe) ∧
  ∀ (s : State) (f : Frame) (fs : List Frame) (op : Byte), Running s f fs → f.code[f.pc]? = some op → MayFetch s →
    decode [op] = .unknownOpcode op → step s = .next (afterFailure (afterFetch s) f fs .unknownOpcode)

/-- R103: the number of immediate bytes, and the bytes of the four range-coded families. The spec marks as its own:
the base bytes of DUP, SWAP and LOG, D3. -/
def Obligations.RangeCodedFamilies : Prop :=
  (∀ (op : Byte) (i : Instr) (bs rest : Bytes), decode (op :: bs) = .instr i rest →
    i.length = 1 + (if 0x60 ≤ op.toNat ∧ op.toNat ≤ 0x7f then op.toNat - 0x5f else 0)) ∧
  (∀ (n : Nat) (bs : Bytes), 1 ≤ n → n ≤ 32 →
    ∃ i, pushOf n (beWord (padRead bs 0 n)) = some i ∧ decode (BitVec.ofNat 8 (0x5f + n) :: bs) = .instr i (bs.drop n)) ∧
  (∀ (n : Nat) (bs : Bytes), 1 ≤ n → n ≤ 16 →
    ∃ i, [Instr.dup1, .dup2, .dup3, .dup4, .dup5, .dup6, .dup7, .dup8, .dup9, .dup10, .dup11, .dup12, .dup13, .dup14,
        .dup15, .dup16][n - 1]? = some i ∧ decode (BitVec.ofNat 8 (0x7f + n) :: bs) = .instr i bs) ∧
  (∀ (n : Nat) (bs : Bytes), 1 ≤ n → n ≤ 16 →
    ∃ i, [Instr.swap1, .swap2, .swap3, .swap4, .swap5, .swap6, .swap7, .swap8, .swap9, .swap10, .swap11, .swap12,
        .swap13, .swap14, .swap15, .swap16][n - 1]? = some i ∧
      decode (BitVec.ofNat 8 (0x8f + n) :: bs) = .instr i bs) ∧
  ∀ (n : Nat) (bs : Bytes), n ≤ 4 →
    ∃ i, [Instr.log0, .log1, .log2, .log3, .log4][n]? = some i ∧ decode (BitVec.ofNat 8 (0xa0 + n) :: bs) = .instr i bs

/-- Words written out from the encodings of spec/30_encoding.md and the examples of the instruction rules. The spec
marks as its own: the bytes other than 0x01, 0x60 and 0x0a, R104, D3. -/
def Obligations.WrittenWordsDecode : Prop :=
  decode [0x01] = .instr .add [] ∧ decode [0x60, 0xff, 0x0a] = .instr (.push1 0xff) [0x0a] ∧
  decode [0x61, 0xab] = .instr (.push2 0xab00) [] ∧ decode [0x5f, 0x60] = .instr .push0 [0x60] ∧
  decode [0x8f] = .instr .dup16 [] ∧ decode [0x90, 0x00] = .instr .swap1 [0x00] ∧ decode [0xa2] = .instr .log2 [] ∧
  decode [0xf3] = .instr .ret [] ∧ decode [0x20] = .instr .sha3 [] ∧ decode [0xfe] = .unknownOpcode 0xfe ∧
  decode [] = .endOfCode ∧ decodeTableWord 24 0x020161 = some (.push2 0x0102)

/-! ## The step -/

/-- R240, R393: a step of the running frame at a decodable opcode executes that instruction, after counting the fetch,
where the pc register holds the pc past the instruction (the point of this check: log entry 19). -/
def Obligations.StepExecutesDecoded : Prop :=
  ∀ (s : State) (f : Frame) (fs : List Frame) (i : Instr) (rest : Bytes), Running s f fs →
    decode (f.code.drop f.pc) = .instr i rest → MayFetch s → PcFits s (f.pc + i.length) →
      step s = exec i (afterFetch s)

/-- R241: at the end of the code the frame halts with success and empty output; nothing is fetched, counted or
refused. The spec marks as its own: that the test comes at the start of the step, before any fetch, D47. -/
def Obligations.EndOfCodeHalts : Prop :=
  ∀ (s : State) (f : Frame) (fs : List Frame), Running s f fs → f.code.length ≤ f.pc →
    step s = .next { s with frames := { f with status := .halted (.ret []) } :: fs }

/-! ## The stack instructions -/

/-- R166: PUSHN as a step of the machine, N = 1..32: the immediate is read from the code, zero-padded, and
zero-extended. The pc register must hold the pc past the immediate (R393; log entry 19). -/
def Obligations.PushReadsImmediate : Prop :=
  ∀ (n : Nat) (s : State) (f : Frame) (fs : List Frame), 1 ≤ n → n ≤ 32 → Running s f fs → MayFetch s →
    PcFits s (f.pc + 1 + n) → f.code[f.pc]? = some (BitVec.ofNat 8 (0x5f + n)) →
    (f.stack.length < s.params.stackLimit →
      step s = .next { afterFetch s with
        frames := { f with stack := beWord (padRead f.code (f.pc + 1) n) :: f.stack, pc := f.pc + 1 + n } :: fs }) ∧
    (s.params.stackLimit ≤ f.stack.length → step s = .next (afterFailure (afterFetch s) f fs .stackOverflow))

/-- R166, instruction by instruction: PUSH1 to PUSH32 push their immediate and advance by 1 + N. -/
def Obligations.PushInstructions : Prop :=
  ∀ w : Word,
    PushEffect (.push1 w) 2 (fun _ _ => some w) ∧ PushEffect (.push2 w) 3 (fun _ _ => some w) ∧
    PushEffect (.push3 w) 4 (fun _ _ => some w) ∧ PushEffect (.push4 w) 5 (fun _ _ => some w) ∧
    PushEffect (.push5 w) 6 (fun _ _ => some w) ∧ PushEffect (.push6 w) 7 (fun _ _ => some w) ∧
    PushEffect (.push7 w) 8 (fun _ _ => some w) ∧ PushEffect (.push8 w) 9 (fun _ _ => some w) ∧
    PushEffect (.push9 w) 10 (fun _ _ => some w) ∧ PushEffect (.push10 w) 11 (fun _ _ => some w) ∧
    PushEffect (.push11 w) 12 (fun _ _ => some w) ∧ PushEffect (.push12 w) 13 (fun _ _ => some w) ∧
    PushEffect (.push13 w) 14 (fun _ _ => some w) ∧ PushEffect (.push14 w) 15 (fun _ _ => some w) ∧
    PushEffect (.push15 w) 16 (fun _ _ => some w) ∧ PushEffect (.push16 w) 17 (fun _ _ => some w) ∧
    PushEffect (.push17 w) 18 (fun _ _ => some w) ∧ PushEffect (.push18 w) 19 (fun _ _ => some w) ∧
    PushEffect (.push19 w) 20 (fun _ _ => some w) ∧ PushEffect (.push20 w) 21 (fun _ _ => some w) ∧
    PushEffect (.push21 w) 22 (fun _ _ => some w) ∧ PushEffect (.push22 w) 23 (fun _ _ => some w) ∧
    PushEffect (.push23 w) 24 (fun _ _ => some w) ∧ PushEffect (.push24 w) 25 (fun _ _ => some w) ∧
    PushEffect (.push25 w) 26 (fun _ _ => some w) ∧ PushEffect (.push26 w) 27 (fun _ _ => some w) ∧
    PushEffect (.push27 w) 28 (fun _ _ => some w) ∧ PushEffect (.push28 w) 29 (fun _ _ => some w) ∧
    PushEffect (.push29 w) 30 (fun _ _ => some w) ∧ PushEffect (.push30 w) 31 (fun _ _ => some w) ∧
    PushEffect (.push31 w) 32 (fun _ _ => some w) ∧ PushEffect (.push32 w) 33 (fun _ _ => some w)

/-- R165, R167: POP discards the top; PUSH0 pushes 0. -/
def Obligations.PopAndPushZero : Prop :=
  (OneByte .pop 0x50 ∧
    ∀ (s : State) (f : Frame) (fs : List Frame), s.frames = f :: fs →
      (∀ a st, f.stack = a :: st →
        exec .pop s = .next { s with frames := { f with stack := st, pc := f.pc + 1 } :: fs }) ∧
      (f.stack = [] → exec .pop s = .next (afterFailure s f fs .stackUnderflow))) ∧
  PushRule .push0 0x5f (fun _ _ => some 0)

/-- R200: DUP1 to DUP16. -/
def Obligations.DupInstructions : Prop :=
  DupRule .dup1 1 ∧ DupRule .dup2 2 ∧ DupRule .dup3 3 ∧ DupRule .dup4 4 ∧ DupRule .dup5 5 ∧ DupRule .dup6 6 ∧
  DupRule .dup7 7 ∧ DupRule .dup8 8 ∧ DupRule .dup9 9 ∧ DupRule .dup10 10 ∧ DupRule .dup11 11 ∧ DupRule .dup12 12 ∧
  DupRule .dup13 13 ∧ DupRule .dup14 14 ∧ DupRule .dup15 15 ∧ DupRule .dup16 16

/-- R217: SWAP1 to SWAP16. -/
def Obligations.SwapInstructions : Prop :=
  SwapRule .swap1 1 ∧ SwapRule .swap2 2 ∧ SwapRule .swap3 3 ∧ SwapRule .swap4 4 ∧ SwapRule .swap5 5 ∧
  SwapRule .swap6 6 ∧ SwapRule .swap7 7 ∧ SwapRule .swap8 8 ∧ SwapRule .swap9 9 ∧ SwapRule .swap10 10 ∧
  SwapRule .swap11 11 ∧ SwapRule .swap12 12 ∧ SwapRule .swap13 13 ∧ SwapRule .swap14 14 ∧ SwapRule .swap15 15 ∧
  SwapRule .swap16 16

/-! ## The arithmetic unit -/

/-- R121 to R123, R128 to R130: the operations modulo 2^256, and those that reduce an exact intermediate. -/
def Obligations.ModularArithmetic : Prop :=
  BinaryRule .add 0x01 (fun a b => BitVec.ofNat 256 ((a.toNat + b.toNat) % 2 ^ 256)) ∧
  BinaryRule .mul 0x02 (fun a b => BitVec.ofNat 256 (a.toNat * b.toNat % 2 ^ 256)) ∧
  BinaryRule .sub 0x03 (fun a b => BitVec.ofNat 256 ((a.toNat + (2 ^ 256 - b.toNat)) % 2 ^ 256)) ∧
  TernaryRule .addmod 0x08
    (fun a b n => if n = 0 then 0 else BitVec.ofNat 256 ((a.toNat + b.toNat) % n.toNat)) ∧
  TernaryRule .mulmod 0x09
    (fun a b n => if n = 0 then 0 else BitVec.ofNat 256 (a.toNat * b.toNat % n.toNat)) ∧
  BinaryRule .exp 0x0a (fun a b => BitVec.ofNat 256 (a.toNat ^ b.toNat % 2 ^ 256))

/-- R124 to R126: unsigned floor division and remainder, and signed truncating division; a divisor 0 gives 0, and
MIN / -1 gives MIN. -/
def Obligations.Division : Prop :=
  BinaryRule .div 0x04 (fun a b => if b = 0 then 0 else BitVec.ofNat 256 (a.toNat / b.toNat)) ∧
  BinaryRule .sdiv 0x05 (fun a b =>
    if b = 0 then 0 else if a = minWord ∧ b = maxWord then minWord else BitVec.ofInt 256 (a.toInt.tdiv b.toInt)) ∧
  BinaryRule .mod 0x06 (fun a b => if b = 0 then 0 else BitVec.ofNat 256 (a.toNat % b.toNat))

/-- R123, R126, R127: the laws that tie the quotient to the remainder, the sign and the size of a signed remainder, and
that `sub` and `add` are inverse. -/
def Obligations.ArithmeticLaws : Prop :=
  ∀ a b : Word,
    aluAdd (aluSub a b) b = a ∧ aluSub (aluAdd a b) b = a ∧
    (b ≠ 0 → a.toNat = b.toNat * (aluDiv a b).toNat + (aluMod a b).toNat) ∧
    (b ≠ 0 → ¬(a = minWord ∧ b = maxWord) → a.toInt = b.toInt * (aluSdiv a b).toInt + (aluSmod a b).toInt) ∧
    (b ≠ 0 → (aluSmod a b).toInt.natAbs < b.toInt.natAbs ∧
      (aluSmod a b = 0 ∨ ((aluSmod a b).toInt < 0 ↔ a.toInt < 0)))

/-- R127, R131, R154, three readings the spec marks as its own: SMOD has the sign of the dividend (decision D40);
SIGNEXTEND is `sext_(8k+8)(x)` for a byte index k below 31 and x for every other k (decision D12); SAR is floor division
of the signed view (R154, "derived"). -/
def Obligations.SmodSignextendSar : Prop :=
  BinaryRule .smod 0x07 (fun a b => if b = 0 then 0 else BitVec.ofInt 256 (a.toInt.tmod b.toInt)) ∧
  BinaryRule .signextend 0x0b (fun k x => if 31 ≤ k.toNat then x else (x.setWidth (8 * k.toNat + 8)).signExtend 256) ∧
  BinaryRule .sar 0x1d (fun n x =>
    if 256 ≤ n.toNat then (if x.toNat < 2 ^ 255 then 0 else maxWord) else BitVec.ofInt 256 (x.toInt / 2 ^ n.toNat))

/-- R141 to R146: the comparisons push 1 or 0. -/
def Obligations.Comparisons : Prop :=
  BinaryRule .lt 0x10 (fun a b => if a.toNat < b.toNat then 1 else 0) ∧
  BinaryRule .gt 0x11 (fun a b => if b.toNat < a.toNat then 1 else 0) ∧
  BinaryRule .slt 0x12 (fun a b => if a.toInt < b.toInt then 1 else 0) ∧
  BinaryRule .sgt 0x13 (fun a b => if b.toInt < a.toInt then 1 else 0) ∧
  BinaryRule .eq 0x14 (fun a b => if a = b then 1 else 0) ∧
  UnaryRule .iszero 0x15 (fun _ _ a => if a = 0 then 1 else 0)

/-- R147 to R153: AND, OR, XOR bit by bit over all 256 bits, NOT as `MAX - a`; BYTE takes the bits `255 - 8i` to
`248 - 8i`; the logical shifts take their count as a full Word. -/
def Obligations.BitwiseAndShifts : Prop :=
  BinaryRule .and 0x16 (fun a b => BitVec.ofFnLE fun j : Fin 256 => a.getLsbD j && b.getLsbD j) ∧
  BinaryRule .or 0x17 (fun a b => BitVec.ofFnLE fun j : Fin 256 => a.getLsbD j || b.getLsbD j) ∧
  BinaryRule .xor 0x18 (fun a b => BitVec.ofFnLE fun j : Fin 256 => a.getLsbD j ^^ b.getLsbD j) ∧
  UnaryRule .not 0x19 (fun _ _ a => BitVec.ofNat 256 (2 ^ 256 - 1 - a.toNat)) ∧
  BinaryRule .byte 0x1a (fun i x => if 32 ≤ i.toNat then 0 else (x.extractLsb' (248 - 8 * i.toNat) 8).setWidth 256) ∧
  BinaryRule .shl 0x1b (fun n x => if 256 ≤ n.toNat then 0 else BitVec.ofNat 256 (x.toNat * 2 ^ n.toNat % 2 ^ 256)) ∧
  BinaryRule .shr 0x1c (fun n x => if 256 ≤ n.toNat then 0 else BitVec.ofNat 256 (x.toNat / 2 ^ n.toNat))

/-! ## Memory -/

/-- R73, R75, R80, R85: growth changes no byte, covers the bytes accessed, keeps the size a multiple of 32 and never
lowers it; a write stores its bytes, changes no other, grows as a read does and keeps the canonical form; a Word
written at o reads back at o; a fresh memory reads as zero; PadRead reads 0 past the end of its buffer. The spec marks
as its own: growth by an access of length 0 D8, the byte order of the round trip D5, exact offsets D7. The canonical
form (Memory.wf) is the model's choice (log entry 9). -/
def Obligations.MemoryUnit : Prop :=
  (∀ (p : Params) (m : Memory) (off n : Nat),
    (m.grow p off n).size = sizeAfter p m.size off n ∧ (∀ a, (m.grow p off n).byteAt a = m.byteAt a) ∧
    m.size ≤ (m.grow p off n).size ∧ (n ≠ 0 → off + n ≤ (m.grow p off n).size) ∧
    (m.size % 32 = 0 → (m.grow p off n).size % 32 = 0)) ∧
  (∀ (s : State) (f : Frame) (off : Nat) (v : Bytes),
    (∀ a, (written s f off v).byteAt a =
      if off ≤ a ∧ a < off + v.length then (v[a - off]?).getD 0 else f.memory.byteAt a) ∧
    (written s f off v).size = sizeAfter s.params f.memory.size off v.length ∧
    (f.memory.wf → (written s f off v).wf)) ∧
  (∀ (s : State) (f : Frame) (o : Nat) (w : Word), beWord ((written s f o (bigEndian w)).bytesAt o 32) = w) ∧
  (∀ a, Memory.empty.byteAt a = 0) ∧
  ∀ (buf : Bytes) (offset n : Nat), (padRead buf offset n).length = n ∧
    ∀ i, i < n → (padRead buf offset n)[i]? = some (if offset + i < buf.length then (buf[offset + i]?).getD 0 else 0)

/-- R81, R235, R239: MLOAD pushes the big-endian Word of 32 bytes, SHA3 the big-endian digest of n bytes; both grow
the memory. The spec marks as its own: the byte order D5, the digest's order D39. -/
def Obligations.MemoryReads : Prop :=
  OneByte .mload 0x51 ∧ OneByte .sha3 0x20 ∧
  ∀ (s : State) (f : Frame) (fs : List Frame), s.frames = f :: fs →
    (∀ o st, f.stack = o :: st → Fits s f o.toNat 32 →
      exec .mload s = .next { s with
        frames := { f with
          stack := beWord ((List.range 32).map fun i => f.memory.byteAt (o.toNat + i)) :: st
          pc := f.pc + 1
          memory := grown s f o.toNat 32 } :: fs }) ∧
    (f.stack = [] → exec .mload s = .next (afterFailure s f fs .stackUnderflow)) ∧
    (∀ o n st, f.stack = o :: n :: st → Fits s f o.toNat n.toNat →
      exec .sha3 s = .next { s with
        frames := { f with
          stack :=
            beWord (Config.hash ((List.range n.toNat).map fun i => f.memory.byteAt (o.toNat + i))).toList :: st
          pc := f.pc + 1
          memory := grown s f o.toNat n.toNat } :: fs }) ∧
    (f.stack.length < 2 → exec .sha3 s = .next (afterFailure s f fs .stackUnderflow))

/-- R81, R236, R237: MSTORE writes 32 bytes, most significant first; MSTORE8 the least significant byte alone. The
spec marks as its own: the operand order D4, the byte order D5, the byte stored by MSTORE8 D6. -/
def Obligations.MemoryWrites : Prop :=
  OneByte .mstore 0x52 ∧ OneByte .mstore8 0x53 ∧
  ∀ (s : State) (f : Frame) (fs : List Frame), s.frames = f :: fs →
    (∀ o w st, f.stack = o :: w :: st → Fits s f o.toNat 32 →
      exec .mstore s = .next { s with
        frames := { f with stack := st, pc := f.pc + 1, memory := written s f o.toNat (bigEndian w) } :: fs }) ∧
    (∀ o w st, f.stack = o :: w :: st → Fits s f o.toNat 1 →
      exec .mstore8 s = .next { s with
        frames := { f with stack := st, pc := f.pc + 1, memory := written s f o.toNat [w.setWidth 8] } :: fs }) ∧
    (f.stack.length < 2 → exec .mstore s = .next (afterFailure s f fs .stackUnderflow) ∧
      exec .mstore8 s = .next (afterFailure s f fs .stackUnderflow))

/-- R26, R263, R265, R268: CALLDATACOPY, CODECOPY and EXTCODECOPY write n bytes, zero-padded past the end of their
source. The spec marks as its own: the operand order D28, the address modulo 2^160 D29, the padding of CODECOPY R265.
-/
def Obligations.CopyInstructions : Prop :=
  OneByte .calldatacopy 0x37 ∧ OneByte .codecopy 0x39 ∧ OneByte .extcodecopy 0x3c ∧
  ∀ (s : State) (f : Frame) (fs : List Frame), s.frames = f :: fs →
    (∀ d src n st, f.stack = d :: src :: n :: st → Fits s f d.toNat n.toNat →
      exec .calldatacopy s = .next { s with
        frames := { f with
          stack := st
          pc := f.pc + 1
          memory := written s f d.toNat (padRead f.calldata src.toNat n.toNat) } :: fs } ∧
      exec .codecopy s = .next { s with
        frames := { f with
          stack := st
          pc := f.pc + 1
          memory := written s f d.toNat (padRead f.code src.toNat n.toNat) } :: fs }) ∧
    (f.stack.length < 3 → exec .calldatacopy s = .next (afterFailure s f fs .stackUnderflow) ∧
      exec .codecopy s = .next (afterFailure s f fs .stackUnderflow)) ∧
    (∀ a d src n st, f.stack = a :: d :: src :: n :: st → Fits s f d.toNat n.toNat →
      exec .extcodecopy s = .next { s with
        frames := { f with
          stack := st
          pc := f.pc + 1
          memory := written s f d.toNat (padRead (codeOf s.world (a.setWidth 160)) src.toNat n.toNat) } :: fs }) ∧
    (f.stack.length < 4 → exec .extcodecopy s = .next (afterFailure s f fs .stackUnderflow))

/-- R270: RETURNDATACOPY under both settings of RETURNDATACOPY_OOB. The spec marks as its own: D26, D28. -/
def Obligations.ReturnDataCopy : Prop :=
  OneByte .returndatacopy 0x3e ∧
  ∀ (s : State) (f : Frame) (fs : List Frame), s.frames = f :: fs →
    (∀ d src n st, f.stack = d :: src :: n :: st →
      (s.params.returndatacopyOob = .zeroPad ∨ src.toNat + n.toNat ≤ f.returndata.length) → Fits s f d.toNat n.toNat →
      exec .returndatacopy s = .next { s with
        frames := { f with
          stack := st
          pc := f.pc + 1
          memory := written s f d.toNat (padRead f.returndata src.toNat n.toNat) } :: fs }) ∧
    (∀ d src n st, f.stack = d :: src :: n :: st → s.params.returndatacopyOob = .fail →
      f.returndata.length < src.toNat + n.toNat →
      exec .returndatacopy s = .next (afterFailure s f fs .returnDataOutOfBounds)) ∧
    (f.stack.length < 3 → exec .returndatacopy s = .next (afterFailure s f fs .stackUnderflow))

/-- R75 and the store rules, over all instructions: an instruction that answers a next state leaves every byte of its
frame's memory as it was, but for the bytes `storeRegion` gives from the operands; every byte where it stores none. -/
def Obligations.OnlyStoredBytesChange : Prop :=
  ∀ (i : Instr) (s t : State) (f g : Frame) (fs : List Frame), s.frames = f :: fs → exec i s = .next t →
    OwnFrame t.frames g fs →
    ∀ a, (∀ off n, storeRegion i f.stack = some (off, n) → a < off ∨ off + n ≤ a) → g.memory.byteAt a = f.memory.byteAt a

/-- R79, R393: a fetch that would pass STEP_LIMIT, a pc the pc register does not hold (after an instruction, or after
a jump), and a memory access whose length no length register holds or whose growth would pass MEM_CAPACITY refuse the
run; for every instruction that accesses memory, where its other checks pass, and for the output copy at a call's
return. The spec marks as its own: that such a run is refused D7, D18; where the refusal falls, and the two register
bounds' form, is the model's choice (log entries 14, 15, 19). -/
def Obligations.LimitsRefuse : Prop :=
  (∀ (s : State) (f : Frame) (fs : List Frame) (limit : Nat), Running s f fs → f.pc < f.code.length →
    s.params.stepLimit = some limit → limit < s.steps + 1 → step s = .refused .stepLimitExceeded) ∧
  (∀ (s : State) (f : Frame) (fs : List Frame) (i : Instr) (rest : Bytes), Running s f fs →
    decode (f.code.drop f.pc) = .instr i rest → MayFetch s → ¬PcFits s (f.pc + i.length) →
    step s = .refused .registerWidthExceeded) ∧
  (∀ (s : State) (f : Frame) (fs : List Frame), s.frames = f :: fs →
    (∀ o st, f.stack = o :: st → AccessRefused s f o.toNat 32 (exec .mload s)) ∧
    (∀ o w st, f.stack = o :: w :: st →
      AccessRefused s f o.toNat 32 (exec .mstore s) ∧ AccessRefused s f o.toNat 1 (exec .mstore8 s) ∧
      AccessRefused s f o.toNat w.toNat (exec .sha3 s) ∧ AccessRefused s f o.toNat w.toNat (exec .ret s) ∧
      AccessRefused s f o.toNat w.toNat (exec .revert s)) ∧
    (∀ d src n st, f.stack = d :: src :: n :: st →
      AccessRefused s f d.toNat n.toNat (exec .calldatacopy s) ∧
      AccessRefused s f d.toNat n.toNat (exec .codecopy s) ∧
      ((s.params.returndatacopyOob = .zeroPad ∨ src.toNat + n.toNat ≤ f.returndata.length) →
        AccessRefused s f d.toNat n.toNat (exec .returndatacopy s))) ∧
    (∀ a d src n st, f.stack = a :: d :: src :: n :: st → AccessRefused s f d.toNat n.toNat (exec .extcodecopy s)) ∧
    (∀ (i : Instr) (n : Nat) o size topics st A,
      (i, n) ∈ [(Instr.log0, 0), (.log1, 1), (.log2, 2), (.log3, 3), (.log4, 4)] →
      f.stack = o :: size :: (topics ++ st) → topics.length = n → f.isStatic = false → f.address = some A →
      AccessRefused s f o.toNat size.toNat (exec i s)) ∧
    (∀ v off size st A, f.stack = v :: off :: size :: st → f.isStatic = false → f.address = some A →
      f.depth + 1 ≤ s.params.depthLimit → v.toNat ≤ (balanceOf s.world A).toNat →
      AccessRefused s f off.toNat size.toNat (exec .create s)) ∧
    (∀ (g a v inOff inSize outOff outSize : Word) (st : List Word), codeOf s.world (a.setWidth 160) ≠ [] →
      f.depth + 1 ≤ s.params.depthLimit →
      (f.stack = callStack s g (a :: v :: inOff :: inSize :: outOff :: outSize :: st) →
        (v = 0 ∨ (f.isStatic = false ∧ ∃ A, f.address = some A ∧ v.toNat ≤ (balanceOf s.world A).toNat)) →
        AccessRefused s f inOff.toNat inSize.toNat (exec .call s)) ∧
      (f.stack = callStack s g (a :: inOff :: inSize :: outOff :: outSize :: st) →
        AccessRefused s f inOff.toNat inSize.toNat (exec .delegatecall s) ∧
        AccessRefused s f inOff.toNat inSize.toNat (exec .staticcall s))) ∧
    (f.jumpdests = jumpdests f.code → ∀ t st, t.toNat ∈ jumpdests f.code → ¬PcFits s (t.toNat + 1) →
      (f.stack = t :: st → exec .jump s = .refused .registerWidthExceeded) ∧
      ∀ c, c ≠ 0 → f.stack = t :: c :: st → exec .jumpi s = .refused .registerWidthExceeded)) ∧
  ∀ (s : State) (k p : Frame) (fs : List Frame) (o : HaltOutcome) (outOff outSize : Word), s.runStatus = .running →
    s.frames = k :: p :: fs → k.status = .halted o →
    (k.kind = .call outOff outSize ∨ k.kind = .delegateCall outOff outSize ∨ k.kind = .staticCall outOff outSize) →
    AccessRefused s p outOff.toNat outSize.toNat (step s)

/-! ## Control -/

/-- R242, R243: STOP halts with success and empty output, JUMPDEST only advances. -/
def Obligations.StopAndJumpdest : Prop :=
  OneByte .stop 0x00 ∧ OneByte .jumpdest 0x5b ∧
  ∀ (s : State) (f : Frame) (fs : List Frame), s.frames = f :: fs →
    exec .stop s = .next { s with frames := { f with pc := f.pc + 1, status := .halted (.ret []) } :: fs } ∧
    exec .jumpdest s = .next { s with frames := { f with pc := f.pc + 1 } :: fs }

/-- R245, R246: the scan marks exactly the offsets that lie on an instruction boundary of the forward scan and hold the
byte 0x5b. -/
def Obligations.JumpTargetsAreBoundaries : Prop :=
  ∀ (code : Bytes) (t : Nat), t ∈ jumpdests code ↔ Boundary code t ∧ code[t]? = some 0x5b

/-- R247, R248: JUMP and JUMPI go to one past a valid target, the full 256-bit value being compared, where the pc
register holds it (R393; log entry 19); an invalid target fails the frame, but not where JUMPI's condition is 0. That
the failed frame still holds the target, and the condition, which R247 and R248 pop first, is the model's choice (log
entry 4). -/
def Obligations.Jumps : Prop :=
  OneByte .jump 0x56 ∧ OneByte .jumpi 0x57 ∧
  ∀ (s : State) (f : Frame) (fs : List Frame), s.frames = f :: fs → f.jumpdests = jumpdests f.code →
    (∀ t st, f.stack = t :: st →
      (t.toNat ∈ jumpdests f.code → PcFits s (t.toNat + 1) →
        exec .jump s = .next { s with frames := { f with stack := st, pc := t.toNat + 1 } :: fs }) ∧
      (t.toNat ∉ jumpdests f.code → exec .jump s = .next (afterFailure s f fs .invalidJumpDestination))) ∧
    (f.stack = [] → exec .jump s = .next (afterFailure s f fs .stackUnderflow)) ∧
    (∀ t c st, f.stack = t :: c :: st →
      (c = 0 → exec .jumpi s = .next { s with frames := { f with stack := st, pc := f.pc + 1 } :: fs }) ∧
      (c ≠ 0 → t.toNat ∈ jumpdests f.code → PcFits s (t.toNat + 1) →
        exec .jumpi s = .next { s with frames := { f with stack := st, pc := t.toNat + 1 } :: fs }) ∧
      (c ≠ 0 → t.toNat ∉ jumpdests f.code →
        exec .jumpi s = .next (afterFailure s f fs .invalidJumpDestination))) ∧
    (f.stack.length < 2 → exec .jumpi s = .next (afterFailure s f fs .stackUnderflow))

/-! ## The environment -/

/-- R238, R244, R256, R258, R259, R260, R262, R264, R266, R269, R278: the context of the frame and of the transaction,
the sizes of the frame's memory, call data, code and return data, and PC's own byte offset. The spec marks as its own:
that PC counts bytes D11, the frame's value field D21, that SELFBALANCE fails without an address D30, that GASPRICE
reads the transaction's field D31, overflow before an absent field R353, D14. That the three lengths and PC are pushed
modulo 2^256 is the model's choice (log entry 17). -/
def Obligations.FrameContextPushes : Prop :=
  PushRule .address 0x30 (fun _ f => f.address.map (BitVec.setWidth 256)) ∧
  PushRule .origin 0x32 (fun s _ => s.tx.origin.map (BitVec.setWidth 256)) ∧
  PushRule .caller 0x33 (fun _ f => f.caller.map (BitVec.setWidth 256)) ∧
  PushRule .callvalue 0x34 (fun _ f => f.value) ∧
  PushRule .gasprice 0x3a (fun s _ => s.tx.gasprice) ∧
  PushRule .selfbalance 0x47 (fun s f => f.address.map (balanceOf s.world)) ∧
  PushRule .msize 0x59 (fun _ f => some (BitVec.ofNat 256 (f.memory.size % 2 ^ 256))) ∧
  PushRule .calldatasize 0x36 (fun _ f => some (BitVec.ofNat 256 f.calldata.length)) ∧
  PushRule .codesize 0x38 (fun _ f => some (BitVec.ofNat 256 f.code.length)) ∧
  PushRule .returndatasize 0x3d (fun _ f => some (BitVec.ofNat 256 f.returndata.length)) ∧
  PushRule .pc 0x58 (fun _ f => some (BitVec.ofNat 256 f.pc))

/-- R272 to R277, R279, R353: the block context. The spec marks as its own: that a full stack gives StackOverflow even
where the field is absent, R353, D14. -/
def Obligations.BlockContextPushes : Prop :=
  PushRule .coinbase 0x41 (fun s _ => s.block.coinbase.map (BitVec.setWidth 256)) ∧
  PushRule .timestamp 0x42 (fun s _ => s.block.timestamp) ∧
  PushRule .number 0x43 (fun s _ => s.block.number) ∧
  PushRule .difficulty 0x44 (fun s _ => s.block.difficulty) ∧
  PushRule .gaslimit 0x45 (fun s _ => s.block.gaslimit) ∧
  PushRule .chainid 0x46 (fun s _ => s.block.chainid) ∧
  PushRule .basefee 0x48 (fun s _ => s.block.basefee)

/-- R26, R257, R261, R267, R271: one operand popped, a view of an account or of the call data pushed. The spec marks
as its own: the byte order D5, the address modulo 2^160 D29, the hash of an account without code D32. That EXTCODESIZE
is pushed modulo 2^256 is the model's choice (log entry 17). -/
def Obligations.AccountAndCalldataReads : Prop :=
  UnaryRule .balance 0x31 (fun s _ a => balanceOf s.world (a.setWidth 160)) ∧
  UnaryRule .extcodesize 0x3b (fun s _ a => BitVec.ofNat 256 (codeOf s.world (a.setWidth 160)).length) ∧
  UnaryRule .extcodehash 0x3f (fun s _ a =>
    if (codeOf s.world (a.setWidth 160)).length = 0 then 0
    else beWord (Config.hash (codeOf s.world (a.setWidth 160))).toList) ∧
  UnaryRule .calldataload 0x35 (fun _ f i => beWord (padRead f.calldata i.toNat 32))

/-! ## Storage, accounts and logs -/

/-- R290, R291: SLOAD and SSTORE act on the storage of the frame's address, with their checks in the rule's order. The
spec marks as its own: the operand order D4, the failure without an address D30, the order of the failures D14. -/
def Obligations.StorageInstructions : Prop :=
  OneByte .sload 0x54 ∧ OneByte .sstore 0x55 ∧
  ∀ (s : State) (f : Frame) (fs : List Frame), s.frames = f :: fs →
    (∀ k st A, f.stack = k :: st → f.address = some A →
      exec .sload s = .next { s with
        frames := { f with stack := storageAt s.world A k :: st, pc := f.pc + 1 } :: fs }) ∧
    (f.stack = [] → exec .sload s = .next (afterFailure s f fs .stackUnderflow)) ∧
    (f.stack ≠ [] → f.address = none → exec .sload s = .next (afterFailure s f fs .missingContextField)) ∧
    (∀ k v st A, f.stack = k :: v :: st → f.isStatic = false → f.address = some A →
      exec .sstore s = .next { s with
        world := sstore s.world A k v
        frames := { f with stack := st, pc := f.pc + 1 } :: fs }) ∧
    (f.stack.length < 2 → exec .sstore s = .next (afterFailure s f fs .stackUnderflow)) ∧
    (2 ≤ f.stack.length → f.isStatic = true → exec .sstore s = .next (afterFailure s f fs .staticViolation)) ∧
    (2 ≤ f.stack.length → f.isStatic = false → f.address = none →
      exec .sstore s = .next (afterFailure s f fs .missingContextField))

/-- R44, R45, R46, R48: an account write, a balance operation, a store and a nonce write are read back where they were
made and change nothing else; an address with no account reads as 0 and empty; a store keeps the canonical form. The
spec marks as its own: D20, D33, D45. The canonical form (worldWf) is the model's choice (log entry 9). -/
def Obligations.WorldWritesReadBack : Prop :=
  (∀ (w : World) (A B : Addr) (a : Account), accountAt (putAccount w A a) B = if B = A then a else accountAt w B) ∧
  (∀ (w : World) (A B : Addr) (k j v : Word),
    storageAt (sstore w A k v) B j = (if B = A ∧ j = k then v else storageAt w B j) ∧
    balanceOf (sstore w A k v) B = balanceOf w B ∧ codeOf (sstore w A k v) B = codeOf w B ∧
    (worldWf w → worldWf (sstore w A k v))) ∧
  (∀ (w : World) (A B : Addr) (n : Word),
    balanceOf (credit w A n) B = (if B = A then BitVec.ofNat 256 (((balanceOf w A).toNat + n.toNat) % 2 ^ 256)
      else balanceOf w B) ∧
    balanceOf (debit w A n) B = (if B = A then BitVec.ofNat 256 (((balanceOf w A).toNat + (2 ^ 256 - n.toNat)) % 2 ^ 256)
      else balanceOf w B)) ∧
  (∀ (m : SMap Nat) (A B : Addr) (n : Nat),
    mapRead 0 (mapWrite 0 m A.toNat n) B.toNat = if B = A then n else mapRead 0 m B.toNat) ∧
  ∀ (w : World) (A : Addr) (k : Word), mapGet w A.toNat = none →
    balanceOf w A = 0 ∧ codeOf w A = [] ∧ storageAt w A k = 0

/-- R46, R312: a value transfer takes v from the payer and gives it to the target; to oneself it changes no balance;
no code, no storage and no third balance changes. The spec marks as its own: D20. -/
def Obligations.TransferMovesValue : Prop :=
  ∀ (w : World) (A T B : Addr) (v : Word), v.toNat ≤ (balanceOf w A).toNat →
    balanceOf (credit (debit w A v) T v) B =
      (if A = T then balanceOf w B else if B = A then balanceOf w A - v else if B = T then balanceOf w T + v
        else balanceOf w B) ∧
    codeOf (credit (debit w A v) T v) B = codeOf w B ∧
    ∀ k, storageAt (credit (debit w A v) T v) B k = storageAt w B k

/-- R292 to R297: LOG0 to LOG4. The spec marks as its own: the topic order D38, the failure without an address D30,
the order of the failures D14. -/
def Obligations.LogInstructions : Prop :=
  LogRule .log0 0 ∧ LogRule .log1 1 ∧ LogRule .log2 2 ∧ LogRule .log3 3 ∧ LogRule .log4 4

/-! ## Calls, creation and returns -/

/-- R314, R315: a CALL, DELEGATECALL or STATICCALL that passes its checks suspends the parent, its operands popped and
its memory grown by the input region, and enters the child of R306 with the column of R315; CALL moves its value. The
spec marks as its own: D4, D10, D14, D19, D20, D21, D22, D24, D25, D29, D37. -/
def Obligations.CallEntersChild : Prop :=
  OneByte .call 0xf1 ∧ OneByte .delegatecall 0xf4 ∧ OneByte .staticcall 0xfa ∧
  ∀ (s : State) (p : Frame) (fs : List Frame) (g a v inOff inSize outOff outSize : Word) (st : List Word),
    s.frames = p :: fs → codeOf s.world (a.setWidth 160) ≠ [] → p.depth + 1 ≤ s.params.depthLimit →
    Fits s p inOff.toNat inSize.toNat →
    (p.stack = callStack s g (a :: v :: inOff :: inSize :: outOff :: outSize :: st) →
      (v = 0 →
        exec .call s = .next { s with
          frames :=
            childFrame s p (codeOf s.world (a.setWidth 160)) (some (a.setWidth 160)) p.address (some v)
                (p.memory.bytesAt inOff.toNat inSize.toNat) p.isStatic (.call outOff outSize) ::
              { p with stack := st, pc := p.pc + 1, memory := grown s p inOff.toNat inSize.toNat } :: fs }) ∧
      (∀ A, v ≠ 0 → p.isStatic = false → p.address = some A → v.toNat ≤ (balanceOf s.world A).toNat →
        exec .call s = .next { s with
          world := credit (debit s.world A v) (a.setWidth 160) v
          frames :=
            childFrame s p (codeOf s.world (a.setWidth 160)) (some (a.setWidth 160)) p.address (some v)
                (p.memory.bytesAt inOff.toNat inSize.toNat) p.isStatic (.call outOff outSize) ::
              { p with stack := st, pc := p.pc + 1, memory := grown s p inOff.toNat inSize.toNat } :: fs })) ∧
    (p.stack = callStack s g (a :: inOff :: inSize :: outOff :: outSize :: st) →
      exec .delegatecall s = .next { s with
        frames :=
          childFrame s p (codeOf s.world (a.setWidth 160)) p.address p.caller p.value
              (p.memory.bytesAt inOff.toNat inSize.toNat) p.isStatic (.delegateCall outOff outSize) ::
            { p with stack := st, pc := p.pc + 1, memory := grown s p inOff.toNat inSize.toNat } :: fs } ∧
      exec .staticcall s = .next { s with
        frames :=
          childFrame s p (codeOf s.world (a.setWidth 160)) (some (a.setWidth 160)) p.address (some 0)
              (p.memory.bytesAt inOff.toNat inSize.toNat) true (.staticCall outOff outSize) ::
            { p with stack := st, pc := p.pc + 1, memory := grown s p inOff.toNat inSize.toNat } :: fs })

/-- R310, R311, R312, R313: a call whose target has no code, a call or creation past the depth limit, and a CALL or
CREATE that the balance does not cover make no frame: the operands are popped, 0 is pushed, the return data is empty,
the memory is untouched. The spec marks as its own: D10, D20, D24, D25, D29, CREATE's short balance D33. -/
def Obligations.NoFrameOutcomes : Prop :=
  ∀ (s : State) (p : Frame) (fs : List Frame) (g a v inOff inSize outOff outSize : Word) (st : List Word),
    s.frames = p :: fs →
    (p.stack = callStack s g (a :: v :: inOff :: inSize :: outOff :: outSize :: st) →
      (v = 0 ∨ (p.isStatic = false ∧ p.address ≠ none)) →
      (codeOf s.world (a.setWidth 160) = [] ∨ s.params.depthLimit < p.depth + 1 ∨
        ∃ A, p.address = some A ∧ (balanceOf s.world A).toNat < v.toNat) →
      exec .call s = .next { s with frames := noFrame p st :: fs }) ∧
    (p.stack = callStack s g (a :: inOff :: inSize :: outOff :: outSize :: st) →
      (codeOf s.world (a.setWidth 160) = [] ∨ s.params.depthLimit < p.depth + 1) →
      exec .delegatecall s = .next { s with frames := noFrame p st :: fs } ∧
      exec .staticcall s = .next { s with frames := noFrame p st :: fs }) ∧
    (∀ A, p.stack = v :: inOff :: inSize :: st → p.isStatic = false → p.address = some A →
      (s.params.depthLimit < p.depth + 1 ∨ (balanceOf s.world A).toNat < v.toNat) →
      exec .create s = .next { s with frames := noFrame p st :: fs })

/-- R321 steps 1 to 13: CREATE: its failures; and where it passes its checks, the creator's nonce is counted, the
creator debited, the new account placed at the derived address and its initialization code entered as a child. The
spec marks as its own: D33, D10, D20, D21, D25, D30, and D14 for its failures. -/
def Obligations.CreateEntersChild : Prop :=
  OneByte .create 0xf0 ∧
  ∀ (s : State) (p : Frame) (fs : List Frame), s.frames = p :: fs →
    (p.stack.length < 3 → Raises .create s p fs .stackUnderflow) ∧
    (3 ≤ p.stack.length → p.isStatic = true → Raises .create s p fs .staticViolation) ∧
    (3 ≤ p.stack.length → p.isStatic = false → p.address = none → Raises .create s p fs .missingContextField) ∧
    ∀ v off size st A N, p.stack = v :: off :: size :: st → p.isStatic = false → p.address = some A →
      p.depth + 1 ≤ s.params.depthLimit → v.toNat ≤ (balanceOf s.world A).toNat → Fits s p off.toNat size.toNat →
      N = Config.createAddress A (nonceOf s A) →
      exec .create s = .next { s with
        nonce := mapWrite 0 s.nonce A.toNat (nonceOf s A + 1)
        world := putAccount (debit s.world A v) N { balance := v, code := [], storage := [] }
        frames :=
          childFrame s p (p.memory.bytesAt off.toNat size.toNat) (some N) (some A) (some v) [] false (.create N v) ::
            { p with stack := st, pc := p.pc + 1, memory := grown s p off.toNat size.toNat } :: fs }

/-- R316, R317: the return transition of a child of CALL, DELEGATECALL or STATICCALL, for its three outcomes: `commit`
or rollback, the return data, exactly `outSize` bytes copied, and 1 or 0 pushed. The spec marks as its own: the output
copy D23, the return data D25, the logs kept or cut D17. -/
def Obligations.CallReturns : Prop :=
  ∀ (s : State) (k p : Frame) (fs : List Frame) (outOff outSize : Word), s.runStatus = .running → s.frames = k :: p :: fs →
    (k.kind = .call outOff outSize ∨ k.kind = .delegateCall outOff outSize ∨ k.kind = .staticCall outOff outSize) →
    Fits s p outOff.toNat outSize.toNat →
    (∀ out, k.status = .halted (.ret out) →
      step s = .next { s with
        frames := { p with
          stack := 1 :: p.stack
          returndata := out
          memory := written s p outOff.toNat (padRead out 0 outSize.toNat) } :: fs }) ∧
    (∀ out, k.status = .halted (.revert out) →
      step s = .next (rolledBack s k.snapshot ({ p with
        stack := 0 :: p.stack
        returndata := out
        memory := written s p outOff.toNat (padRead out 0 outSize.toNat) } :: fs))) ∧
    ∀ kind, k.status = .halted (.fail kind) →
      step s = .next (rolledBack s k.snapshot ({ p with
        stack := 0 :: p.stack
        returndata := []
        memory := written s p outOff.toNat (padRead [] 0 outSize.toNat) } :: fs))

/-- R321, "on K's halt": the return transition of a CREATE child. The spec marks as its own: D33, the parent's return
data D25, the logs kept or cut D17. -/
def Obligations.CreateReturns : Prop :=
  ∀ (s : State) (k p : Frame) (fs : List Frame) (N : Addr) (v : Word), s.runStatus = .running →
    s.frames = k :: p :: fs → k.kind = .create N v →
    (∀ out, k.status = .halted (.ret out) →
      step s = .next { s with
        world := putAccount s.world N { accountAt s.world N with balance := v, code := out }
        frames := { p with stack := N.setWidth 256 :: p.stack, returndata := [] } :: fs }) ∧
    (∀ out, k.status = .halted (.revert out) →
      step s = .next (rolledBack s k.snapshot ({ p with stack := 0 :: p.stack, returndata := out } :: fs))) ∧
    ∀ kind, k.status = .halted (.fail kind) →
      step s = .next (rolledBack s k.snapshot ({ p with stack := 0 :: p.stack, returndata := [] } :: fs))

/-- R322, R323: RETURN and REVERT halt with the bytes of a memory region. The spec marks as its own: the operand order
D27. -/
def Obligations.ReturnAndRevert : Prop :=
  OneByte .ret 0xf3 ∧ OneByte .revert 0xfd ∧
  ∀ (s : State) (f : Frame) (fs : List Frame), s.frames = f :: fs →
    (∀ off size st, f.stack = off :: size :: st → Fits s f off.toNat size.toNat →
      exec .ret s = .next { s with
        frames := { f with
          stack := st
          pc := f.pc + 1
          memory := grown s f off.toNat size.toNat
          status := .halted (.ret ((List.range size.toNat).map fun i => f.memory.byteAt (off.toNat + i))) } :: fs } ∧
      exec .revert s = .next { s with
        frames := { f with
          stack := st
          pc := f.pc + 1
          memory := grown s f off.toNat size.toNat
          status := .halted (.revert ((List.range size.toNat).map fun i => f.memory.byteAt (off.toNat + i))) } :: fs }) ∧
    (f.stack.length < 2 → Raises .ret s f fs .stackUnderflow ∧ Raises .revert s f fs .stackUnderflow)

/-- R324: SELFDESTRUCT gives the whole balance to the beneficiary, marks the account and halts with success. The spec
marks as its own: that it halts D34, the order of the failures D14, the failure without an address D30, the balance
operations D20, the address modulo 2^160 D29. That a transfer of 0 makes both accounts exist is the model's reading of
R44 (log entry 16). -/
def Obligations.SelfdestructRule : Prop :=
  OneByte .selfdestruct 0xff ∧
  (∀ (s : State) (f : Frame) (fs : List Frame), s.frames = f :: fs →
    (f.stack = [] → Raises .selfdestruct s f fs .stackUnderflow) ∧
    (f.stack ≠ [] → f.isStatic = true → Raises .selfdestruct s f fs .staticViolation) ∧
    (f.stack ≠ [] → f.isStatic = false → f.address = none → Raises .selfdestruct s f fs .missingContextField) ∧
    ∀ b st A, f.stack = b :: st → f.isStatic = false → f.address = some A →
      exec .selfdestruct s = .next { s with
        world := credit (debit s.world A (balanceOf s.world A)) (b.setWidth 160) (balanceOf s.world A)
        destruct := addrInsert A s.destruct
        frames := { f with stack := st, pc := f.pc + 1, status := .halted (.ret []) } :: fs }) ∧
  ∀ (A B : Addr) (marked : List Addr), B ∈ addrInsert A marked ↔ B = A ∨ B ∈ marked

/-- R325, R341: the end of a run, for the three outcomes of the top-level frame, and the codes of the failures. The
stack of an unsuccessful Result is any value (R56); that the frame list ends empty and that a free value is counted is
the model's choice (log entries 5, 8). The spec marks as its own: the codes D15, a revert at top level D16, the logs
kept or cut D17, the end of a run D34, D35. -/
def Obligations.RunEnds : Prop :=
  ∀ (s : State) (f : Frame), s.runStatus = .running → s.frames = [f] →
    (∀ out, f.status = .halted (.ret out) → ∃ w, (∀ A : Addr,
        mapGet w A.toNat = if A ∈ s.destruct then none else mapGet s.world A.toNat) ∧
      step s = .next { s with
        runStatus := .done
        frames := []
        world := w
        result := some { success := true, stack := f.stack, logs := s.logs, returned := out } }) ∧
    (∀ out, f.status = .halted (.revert out) → ∃ stack,
      step s = .next { rolledBack s f.snapshot [] with
        runStatus := .done
        freeCount := s.freeCount + 1
        result := some { success := false, stack := stack, logs := (rolledBack s f.snapshot []).logs, returned := out } }) ∧
    ∀ kind code,
      (kind, code) ∈ [(FailureKind.stackUnderflow, 1), (.stackOverflow, 2), (.invalidJumpDestination, 3),
        (.unknownOpcode, 4), (.staticViolation, 5), (.missingContextField, 6), (.callTargetNotFound, 7),
        (.depthLimitExceeded, 8), (.returnDataOutOfBounds, 9)] →
      f.status = .halted (.fail kind) → ∃ stack,
      step s = .next { rolledBack s f.snapshot [] with
        runStatus := .done
        freeCount := s.freeCount + 1
        lastFailure := code
        result := some { success := false, stack := stack, logs := (rolledBack s f.snapshot []).logs, returned := [] } }

/-! ## Failures and the static mode -/

/-- R342: an instruction raises StackUnderflow exactly when the stack is shallower than its required depth. -/
def Obligations.UnderflowTable : Prop :=
  ∀ (i : Instr) (s : State) (f : Frame) (fs : List Frame), s.frames = f :: fs → f.status = .running →
    (Raises i s f fs .stackUnderflow ↔ f.stack.length < requiredDepth s.params i)

/-- R343, R353: StackOverflow is raised exactly by the instructions that push without popping, on a full stack, DUPn
testing underflow first. The spec marks as its own: that it comes before an absent context value, R353, D14. -/
def Obligations.OverflowTable : Prop :=
  ∀ (i : Instr) (s : State) (f : Frame) (fs : List Frame), s.frames = f :: fs → f.status = .running →
    (Raises i s f fs .stackOverflow ↔
      pushesOnly i = true ∧ requiredDepth s.params i ≤ f.stack.length ∧ s.params.stackLimit ≤ f.stack.length)

/-- R346, R353: StaticViolation is raised exactly in a static frame by what static mode forbids, underflow coming
first. The spec marks as its own: D14. -/
def Obligations.StaticViolationTable : Prop :=
  ∀ (i : Instr) (s : State) (f : Frame) (fs : List Frame), s.frames = f :: fs → f.status = .running →
    (Raises i s f fs .staticViolation ↔
      requiredDepth s.params i ≤ f.stack.length ∧ f.isStatic = true ∧
        forbiddenWhenStatic s.params f.stack i = true)

/-- R347, R353: MissingContextField is raised exactly by an instruction that reads an absent context value, the other
checks coming first. The spec marks as its own: D14, D30. -/
def Obligations.MissingContextTable : Prop :=
  ∀ (i : Instr) (s : State) (f : Frame) (fs : List Frame), s.frames = f :: fs → f.status = .running →
    (Raises i s f fs .missingContextField ↔
      requiredDepth s.params i ≤ f.stack.length ∧
        ¬(pushesOnly i = true ∧ s.params.stackLimit ≤ f.stack.length) ∧
        ¬(f.isStatic = true ∧ forbiddenWhenStatic s.params f.stack i = true) ∧ readsAbsent s f i = true)

/-- R344, R348, R349, R350, R352: whatever instruction fails its frame, the frame's status is all that changes; only
JUMP and JUMPI raise InvalidJumpDestination, only RETURNDATACOPY raises ReturnDataOutOfBounds, and no instruction
raises UnknownOpcode, CallTargetNotFound or DepthLimitExceeded. The spec marks as its own: D13; that JUMP keeps even
its operand is the model's choice, log entry 4. -/
def Obligations.FailureChangesOnlyStatus : Prop :=
  ∀ (i : Instr) (s t : State) (f g : Frame) (fs below : List Frame) (k : FailureKind), s.frames = f :: fs →
    f.status = .running → exec i s = .next t → t.frames = g :: below → g.status = .halted (.fail k) →
    t = afterFailure s f fs k ∧ (k = .invalidJumpDestination → i = .jump ∨ i = .jumpi) ∧
      (k = .returnDataOutOfBounds → i = .returndatacopy) ∧ k ≠ .unknownOpcode ∧ k ≠ .callTargetNotFound ∧
      k ≠ .depthLimitExceeded

/-! ## Whole-machine rules -/

/-- R27, R53, R88, R280: what no instruction changes: the host's registers, the run status, the frames below, and the
fixed fields of its own frame; its own memory's size never shrinks. -/
def Obligations.InstructionFrame : Prop :=
  ∀ (i : Instr) (s t : State) (f : Frame) (fs : List Frame), s.frames = f :: fs → exec i s = .next t →
    t.tx = s.tx ∧ t.block = s.block ∧ t.params = s.params ∧ t.runStatus = s.runStatus ∧ t.steps = s.steps ∧
    t.result = s.result ∧ t.lastFailure = s.lastFailure ∧ t.freeCount = s.freeCount ∧
    ∃ g, OwnFrame t.frames g fs ∧ g.code = f.code ∧ g.jumpdests = f.jumpdests ∧ g.address = f.address ∧
      g.caller = f.caller ∧ g.value = f.value ∧ g.calldata = f.calldata ∧ g.isStatic = f.isStatic ∧
      g.depth = f.depth ∧ g.snapshot = f.snapshot ∧ g.kind = f.kind ∧ f.memory.size ≤ g.memory.size

/-- R43 to R49, R39: which instructions can change the world, the marks, the nonces, the logs and their frame's return
data; logs are only appended to, nonces only counted up. The spec marks as its own: the return-data buffer D25, the
nonces D33, the marks D34. -/
def Obligations.SharedStateFrame : Prop :=
  ∀ (i : Instr) (s t : State) (f : Frame) (fs : List Frame), s.frames = f :: fs → exec i s = .next t →
    (t.world ≠ s.world → i = .sstore ∨ i = .call ∨ i = .create ∨ i = .selfdestruct) ∧
    (t.destruct ≠ s.destruct → i = .selfdestruct) ∧
    (t.nonce ≠ s.nonce → i = .create) ∧
    (t.logs ≠ s.logs → i = .log0 ∨ i = .log1 ∨ i = .log2 ∨ i = .log3 ∨ i = .log4) ∧
    (∃ new, t.logs = s.logs ++ new) ∧ (∀ A, nonceOf s A ≤ nonceOf t A) ∧
    ∀ g, OwnFrame t.frames g fs → g.returndata ≠ f.returndata →
      i = .call ∨ i = .delegatecall ∨ i = .staticcall ∨ i = .create

/-- R88, R298, R327: what the return of a child that reverted or failed leaves: `world` and `destruct` of its entry
snapshot, the nonces as they stand, the logs as they stand or cut under LOGS_ROLL_BACK, and of the parent its pc, its
code, every Word of its stack, under the 0 pushed, and every byte of its memory outside the output region; its return
data are the bytes of a revert, or empty. The spec marks as its own: the logs D17, the return data D25, the nonces
D33. -/
def Obligations.FailedChildIsUndone : Prop :=
  ∀ (s t : State) (k p : Frame) (fs : List Frame) (o : HaltOutcome), s.runStatus = .running → s.frames = k :: p :: fs →
    k.status = .halted o → (∀ out, o ≠ .ret out) → step s = .next t →
    t.world = k.snapshot.world ∧ t.destruct = k.snapshot.destruct ∧ t.nonce = s.nonce ∧
    t.logs = (if s.params.logsRollBack = true then s.logs.take k.snapshot.logCount else s.logs) ∧
    ∃ q, t.frames = q :: fs ∧ q.pc = p.pc ∧ q.code = p.code ∧ q.stack = 0 :: p.stack ∧
      (∀ out, o = .revert out → q.returndata = out) ∧ (∀ kind, o = .fail kind → q.returndata = []) ∧
      ∀ a, (∀ outOff outSize : Word,
          (k.kind = .call outOff outSize ∨ k.kind = .delegateCall outOff outSize ∨ k.kind = .staticCall outOff outSize) →
          a < outOff.toNat ∨ outOff.toNat + outSize.toNat ≤ a) →
        q.memory.byteAt a = p.memory.byteAt a

/-- The invariant holds right after reset (R59's values: D41, log entry 7; the canonical forms: log entry 9). -/
def Obligations.ResetMeetsInvariant : Prop := State.reset.Inv

/-- R59, R380: the state after reset; a reset at any time gives it, the parameters and the count of free values
standing (that these two fields stand is the model's choice, log entry 10). The spec marks as its own: D41. That R59's
values are taken, and the parameters' defaults for the two register bounds, is the model's choice (log entries 7, 1,
19). -/
def Obligations.ResetState : Prop :=
  State.reset =
    { runStatus := .idle, frames := [], world := [], destruct := [], nonce := [], logs := []
      tx := { toAddr := none, fromAddr := none, origin := none, gasprice := none, value := none, data := none }
      block :=
        { number := none, timestamp := none, coinbase := none, gaslimit := none, gasprice := none, difficulty := none
          chainid := none, basefee := none }
      steps := 0, result := none, lastFailure := 0
      params :=
        { stackLimit := 1024, depthLimit := 1024, stepLimit := none, memCapacity := none, pcLimit := none
          lengthLimit := none, zeroLengthGrows := true, logsRollBack := false, returndatacopyOob := .zeroPad, callHasGasOperand := false }
      freeCount := 0 } ∧
  ∀ s, resetEvent s = { State.reset with params := s.params, freeCount := s.freeCount }

/-- R55, R326, R386: a launch rebuilds the whole run state from the inputs. The world at launch has each listed
account, with its balance or 0, its code or empty, and no storage, and no other. The spec marks as its own: D35; LOAD
and START as one call D2. That LOAD answers nothing while a run is in progress or where the length registers do not
hold an input, and that the parameters and the count of free values stand, is the model's choice (log entries 10, 1,
5, 19). -/
def Obligations.LaunchState : Prop :=
  (∀ (inputs : LaunchInputs) (s : State),
    (s.runStatus = .running ∨ ¬InputsFit s inputs → load inputs s = none ∧ launch inputs s = none) ∧
    (s.runStatus ≠ .running → InputsFit s inputs →
      launch inputs s = some
        { runStatus := .running
          frames :=
            [{ code := inputs.code, jumpdests := jumpdests inputs.code, pc := 0, stack := []
               memory := { cells := [], size := 0 }, address := inputs.tx.toAddr, caller := inputs.tx.fromAddr
               value := inputs.tx.value, calldata := inputs.tx.data.getD [], isStatic := false, depth := 0
               returndata := [], status := .running
               snapshot := { world := buildWorld inputs.state, destruct := [], logCount := 0 }, kind := .top }]
          world := buildWorld inputs.state, destruct := [], nonce := [], logs := [], tx := inputs.tx
          block := inputs.block, steps := 0, result := none, lastFailure := 0, params := s.params
          freeCount := s.freeCount })) ∧
  ∀ (state : List (Addr × AccountInput)), (state.map Prod.fst).Nodup →
    (∀ A a, (A, a) ∈ state →
      mapGet (buildWorld state) A.toNat = some { balance := a.balance.getD 0, code := a.code.getD [], storage := [] }) ∧
    ∀ A : Addr, A ∉ state.map Prod.fst → mapGet (buildWorld state) A.toNat = none

/-- A launched run meets the invariant (the canonical forms: log entry 9; the register bounds: log entry 19). -/
def Obligations.LaunchMeetsInvariant : Prop :=
  ∀ (inputs : LaunchInputs) (s t : State), launch inputs s = some t → t.Inv

/-- R29, R30, R38, R42, R71, R79, R109, R315, R355, R361, R393 and the canonical forms, gathered in `State.Inv`: every
step keeps them. The canonical forms are the model's choice (log entry 9), and so is the form of the two register
bounds (log entry 19). -/
def Obligations.StepKeepsInvariant : Prop := ∀ s t : State, s.Inv → step s = .next t → t.Inv

/-- R355, R389: from a state that meets the invariant no step faults (the two faults: log entry 12). -/
def Obligations.StepNeverFaults : Prop := ∀ (s : State) (e : Fault), s.Inv → step s ≠ .fault e

/-- R361: while a frame is static, neither its own instructions nor the returns to it change `world`, `destruct` or
`logs`. The spec marks as its own: R361 derives it. -/
def Obligations.StaticFramesMutateNothing : Prop :=
  ∀ (s t : State) (f : Frame) (fs : List Frame), s.Inv → s.runStatus = .running → step s = .next t →
    (s.frames = f :: fs ∧ f.isStatic = true ∧ f.status = .running ∨ ∃ k, s.frames = k :: f :: fs ∧ f.isStatic = true) →
    t.world = s.world ∧ t.destruct = s.destruct ∧ t.logs = s.logs

/-- R42, R38: the frame stack never holds more than DEPTH_LIMIT + 1 frames, and the frame at each place has the depth
of its place. The spec marks as its own: the depth of the top-level frame D10. -/
def Obligations.FrameStackIsBounded : Prop :=
  ∀ s : State, s.Inv → s.frames.length ≤ s.params.depthLimit + 1 ∧
    ∀ (above below : List Frame) (f : Frame), s.frames = above ++ f :: below → f.depth = below.length

/-- R53, R280, R385, R388, R389: no step changes the context registers or the parameters, and a step that does not end
the run changes neither the Result nor `lastFailure`; while a run is in progress the host can neither load, start nor
read; while none is, the core does nothing; the host reads the Result of a finished run, and before the end there is
none to read. The spec marks as its own: the operations of the interface D2. That the core stutters, that the host's
operations answer nothing, and that the status becomes Idle is the model's choice (log entries 3 and 10). -/
def Obligations.HostAndCore : Prop :=
  (∀ s t : State, step s = .next t →
    t.tx = s.tx ∧ t.block = s.block ∧ t.params = s.params ∧
    (t.runStatus = s.runStatus → t.result = s.result ∧ t.lastFailure = s.lastFailure)) ∧
  (∀ s : State, s.runStatus ≠ .running → step s = .next s) ∧
  (∀ s : State, start s =
    if s.runStatus = .idle ∧ s.frames ≠ [] then some { s with runStatus := .running } else none) ∧
  (∀ (inputs : LaunchInputs) (s : State), s.runStatus = .running →
    load inputs s = none ∧ start s = none ∧ launch inputs s = none ∧ readResult s = none) ∧
  (∀ (s : State) (r : Result), s.runStatus = .done → s.result = some r →
    readResult s = some (r, { s with runStatus := .idle })) ∧
  ∀ s : State, s.runStatus ≠ .done → readResult s = none

end
end

