-- ==== Sys2Proof/Laws/Bytes.lean ====
section
/-!
SUPPORT. The byte-order helpers: lengths, and big-endian bytes to a number and back.
-/

namespace Sys2Proof

@[simp] theorem padRead_length (buf : Bytes) (off n : Nat) : (padRead buf off n).length = n := by simp [padRead]

theorem padRead_get (buf : Bytes) (off n i : Nat) (h : i < n) :
    (padRead buf off n)[i]? = some ((buf[off + i]?).getD 0) := by
  simp [padRead, h]

@[simp] theorem bytesBE_length (n x : Nat) : (bytesBE n x).length = n := by
  induction n with
  | zero => rfl
  | succ n ih => simp [bytesBE, ih]

@[simp] theorem beNat_nil : beNat [] = 0 := rfl

theorem beNat_foldl (bs : Bytes) (a : Nat) :
    bs.foldl (fun acc b => acc * 256 + b.toNat) a = a * 256 ^ bs.length + beNat bs := by
  induction bs generalizing a with
  | nil => simp [beNat]
  | cons b rest ih =>
    unfold beNat
    rw [List.foldl_cons, List.foldl_cons, ih, ih (0 * 256 + b.toNat), List.length_cons, Nat.pow_succ]
    ring

theorem beNat_cons (b : Byte) (rest : Bytes) : beNat (b :: rest) = b.toNat * 256 ^ rest.length + beNat rest := by
  conv_lhs => unfold beNat
  rw [List.foldl_cons, beNat_foldl, Nat.zero_mul, Nat.zero_add]

theorem beNat_lt (bs : Bytes) : beNat bs < 256 ^ bs.length := by
  induction bs with
  | nil => simp
  | cons b rest ih =>
    rw [beNat_cons, List.length_cons, Nat.pow_succ]
    have hb := b.isLt
    nlinarith [Nat.mul_le_mul_right (256 ^ rest.length) (Nat.le_of_lt_succ hb)]

/-- R21: the big-endian bytes of `x` stand for `x` modulo 256^n. -/
theorem beNat_bytesBE (n x : Nat) : beNat (bytesBE n x) = x % 256 ^ n := by
  induction n with
  | zero => simp [bytesBE, Nat.mod_one]
  | succ n ih =>
    have h8 : 2 ^ 8 = 256 := rfl
    rw [bytesBE, beNat_cons, bytesBE_length, ih, BitVec.toNat_ofNat, h8, pow_succ 256 n, Nat.mod_mul]
    ring

/-- R21: the bytes of the number that `bs` stands for are `bs`. -/
theorem bytesBE_beNat (bs : Bytes) : bytesBE bs.length (beNat bs) = bs := by
  have low : ∀ (n x y : Nat), x % 256 ^ n = y % 256 ^ n → bytesBE n x = bytesBE n y := by
    intro n
    induction n with
    | zero => intros; rfl
    | succ n ih =>
      intro x y h
      rw [Nat.pow_succ, Nat.mod_mul, Nat.mod_mul] at h
      have h1 : x % 256 ^ n = y % 256 ^ n := by
        have := congrArg (· % 256 ^ n) h
        simpa [Nat.add_mul_mod_self_left, Nat.mod_mod] using this
      have h2 : x / 256 ^ n % 256 = y / 256 ^ n % 256 := by
        rw [h1] at h
        exact Nat.eq_of_mul_eq_mul_left (by positivity) (Nat.add_left_cancel h)
      rw [bytesBE, bytesBE, ih x y h1]
      congr 1
      exact BitVec.eq_of_toNat_eq (by simpa using h2)
  induction bs with
  | nil => rfl
  | cons b rest ih =>
    have hr := beNat_lt rest
    have hp : 0 < 256 ^ rest.length := by positivity
    rw [List.length_cons, bytesBE, beNat_cons]
    congr 1
    · rw [Nat.mul_comm, Nat.mul_add_div hp, Nat.div_eq_of_lt hr]
      exact BitVec.eq_of_toNat_eq (by simp)
    · conv_rhs => rw [← ih]
      exact low _ _ _ (by rw [Nat.mul_comm, Nat.mul_add_mod])

theorem beWord_bytesBE (n : Nat) (w : Word) (h : w.toNat < 256 ^ n) : beWord (bytesBE n w.toNat) = w := by
  unfold beWord
  rw [beNat_bytesBE, Nat.mod_eq_of_lt h]
  exact BitVec.eq_of_toNat_eq (by simp)

/-- Reading the head of a buffer that holds at least `n` bytes. -/
theorem padRead_append (bs rest : Bytes) : padRead (bs ++ rest) 0 bs.length = bs := by
  apply List.ext_getElem
  · simp
  · intro i h1 h2
    simp [padRead, List.getElem?_append_left h2, List.getElem?_eq_getElem h2]

end Sys2Proof
end

