-- ==== Sys2Proof/Laws/Maps.lean ====
section
/-!
SUPPORT. The laws of finite maps and of address sets: a read after a write, every other key unchanged, and every
operation keeps the canonical form.
-/

namespace Sys2Proof.Machine

variable {α : Type}

theorem mapGet_mapPut (m : SMap α) (i j : Nat) (v : α) :
    mapGet (mapPut m i v) j = if j = i then some v else mapGet m j := by
  induction m with
  | nil => simp [mapPut, mapGet]
  | cons e rest ih =>
    obtain ⟨k, w⟩ := e
    unfold mapPut
    split
    · by_cases h : j = i <;> simp [mapGet, h]
    · split
      · subst i; by_cases h : j = k <;> simp [mapGet, h]
      · by_cases h : j = k
        · subst j; rw [if_neg (by omega)]; simp [mapGet]
        · simp [mapGet, h, ih]

theorem mapGet_mapErase (m : SMap α) (i j : Nat) :
    mapGet (mapErase m i) j = if j = i then none else mapGet m j := by
  induction m with
  | nil => simp [mapErase, mapGet]
  | cons e rest ih =>
    obtain ⟨k, w⟩ := e
    unfold mapErase
    split
    · subst i; rw [ih]; by_cases h : j = k <;> simp [mapGet, h]
    · by_cases h : j = k
      · subst j; rw [if_neg (by omega)]; simp [mapGet]
      · simp [mapGet, h, ih]

theorem mapRead_mapPut (d : α) (m : SMap α) (i j : Nat) (v : α) :
    mapRead d (mapPut m i v) j = if j = i then v else mapRead d m j := by
  unfold mapRead; rw [mapGet_mapPut]; split <;> rfl

/-- A read after a write: the value written at that key, the old value at every other. -/
theorem mapRead_mapWrite [DecidableEq α] (d : α) (m : SMap α) (i j : Nat) (v : α) :
    mapRead d (mapWrite d m i v) j = if j = i then v else mapRead d m j := by
  unfold mapWrite
  split
  · subst v; unfold mapRead; rw [mapGet_mapErase]; split <;> rfl
  · exact mapRead_mapPut ..

theorem mem_mapPut {m : SMap α} {i : Nat} {v : α} {e : Nat × α} (h : e ∈ mapPut m i v) : e = (i, v) ∨ e ∈ m := by
  induction m with
  | nil => simpa [mapPut] using h
  | cons a rest ih =>
    obtain ⟨k, w⟩ := a
    unfold mapPut at h
    split at h
    · simpa using h
    · split at h
      · rcases List.mem_cons.mp h with h | h
        · exact .inl h
        · exact .inr (List.mem_cons_of_mem _ h)
      · rcases List.mem_cons.mp h with h | h
        · exact .inr (h ▸ List.mem_cons_self)
        · exact (ih h).imp_right (List.mem_cons_of_mem _)

theorem mem_mapErase {m : SMap α} {i : Nat} {e : Nat × α} (h : e ∈ mapErase m i) : e ∈ m := by
  induction m with
  | nil => exact h
  | cons a rest ih =>
    obtain ⟨k, w⟩ := a
    unfold mapErase at h
    split at h
    · exact List.mem_cons_of_mem _ (ih h)
    · rcases List.mem_cons.mp h with h | h
      · exact h ▸ List.mem_cons_self
      · exact List.mem_cons_of_mem _ (ih h)

theorem mem_mapWrite [DecidableEq α] {d : α} {m : SMap α} {i : Nat} {v : α} {e : Nat × α}
    (h : e ∈ mapWrite d m i v) : (e = (i, v) ∧ v ≠ d) ∨ e ∈ m := by
  unfold mapWrite at h
  split at h
  · exact .inr (mem_mapErase h)
  · exact (mem_mapPut h).imp_left fun he => ⟨he, ‹_›⟩

theorem mapPut_sorted {m : SMap α} (h : MapSorted m) (i : Nat) (v : α) : MapSorted (mapPut m i v) := by
  induction m with
  | nil => simp [mapPut]
  | cons a rest ih =>
    obtain ⟨k, w⟩ := a
    obtain ⟨hk, hr⟩ := List.pairwise_cons.mp h
    unfold mapPut
    split
    · refine List.pairwise_cons.mpr ⟨fun e he => ?_, h⟩
      rcases List.mem_cons.mp he with he | he
      · subst he; assumption
      · exact Nat.lt_trans ‹_› (hk e he)
    · split
      · subst i; exact List.pairwise_cons.mpr ⟨hk, hr⟩
      · refine List.pairwise_cons.mpr ⟨fun e he => ?_, ih hr⟩
        rcases mem_mapPut he with he | he
        · subst he; show k < i; omega
        · exact hk e he

theorem mapErase_sorted {m : SMap α} (h : MapSorted m) (i : Nat) : MapSorted (mapErase m i) := by
  induction m with
  | nil => exact h
  | cons a rest ih =>
    obtain ⟨k, w⟩ := a
    obtain ⟨hk, hr⟩ := List.pairwise_cons.mp h
    unfold mapErase
    split
    · exact ih hr
    · exact List.pairwise_cons.mpr ⟨fun e he => hk e (mem_mapErase he), ih hr⟩

theorem mapWrite_sorted [DecidableEq α] {m : SMap α} (h : MapSorted m) (d : α) (i : Nat) (v : α) :
    MapSorted (mapWrite d m i v) := by
  unfold mapWrite; split
  · exact mapErase_sorted h i
  · exact mapPut_sorted h i v

/-- The value read at a key is the default or the value of an entry for that key. -/
theorem mapRead_cases (d : α) (m : SMap α) (i : Nat) : mapRead d m i = d ∨ (i, mapRead d m i) ∈ m := by
  induction m with
  | nil => exact .inl rfl
  | cons a rest ih =>
    obtain ⟨k, w⟩ := a
    by_cases h : i = k
    · subst h; right; simp [mapRead, mapGet]
    · have : mapRead d ((k, w) :: rest) i = mapRead d rest i := by simp [mapRead, mapGet, h]
      rw [this]
      exact ih.imp_right (List.mem_cons_of_mem _)

theorem mem_addrInsert {A B : Addr} {set : List Addr} (h : B ∈ addrInsert A set) : B = A ∨ B ∈ set := by
  induction set with
  | nil => simpa [addrInsert] using h
  | cons C rest ih =>
    unfold addrInsert at h
    split at h
    · simpa using h
    · split at h
      · exact .inr h
      · rcases List.mem_cons.mp h with h | h
        · exact .inr (h ▸ List.mem_cons_self)
        · exact (ih h).imp_right (List.mem_cons_of_mem _)

theorem addrInsert_sorted {set : List Addr} (h : set.Pairwise (fun A B => A.toNat < B.toNat)) (A : Addr) :
    (addrInsert A set).Pairwise (fun A B => A.toNat < B.toNat) := by
  induction set with
  | nil => simp [addrInsert]
  | cons C rest ih =>
    obtain ⟨hk, hr⟩ := List.pairwise_cons.mp h
    unfold addrInsert
    split
    · refine List.pairwise_cons.mpr ⟨fun e he => ?_, h⟩
      rcases List.mem_cons.mp he with he | he
      · subst he; assumption
      · exact Nat.lt_trans ‹_› (hk e he)
    · split
      · exact h
      · refine List.pairwise_cons.mpr ⟨fun e he => ?_, ih hr⟩
        rcases mem_addrInsert he with he | he
        · subst he
          have : e ≠ C := by assumption
          have : e.toNat ≠ C.toNat := fun hh => this (BitVec.eq_of_toNat_eq hh)
          omega
        · exact hk e he

end Sys2Proof.Machine
end

