-- ==== Sys2Proof/Laws/Memory.lean ====
section
/-!
SUPPORT. The laws of the memory unit (spec/20_memory.md): a byte after a store, growth, and that every operation keeps
the canonical form.
-/

namespace Sys2Proof.Machine

@[simp] theorem grow_cells (m : Memory) (p : Params) (off n : Nat) : (m.grow p off n).cells = m.cells := rfl

@[simp] theorem grow_byteAt (m : Memory) (p : Params) (off n a : Nat) : (m.grow p off n).byteAt a = m.byteAt a := rfl

@[simp] theorem grow_bytesAt (m : Memory) (p : Params) (off n o k : Nat) :
    (m.grow p off n).bytesAt o k = m.bytesAt o k := rfl

@[simp] theorem bytesAt_length (m : Memory) (off n : Nat) : (m.bytesAt off n).length = n := by simp [Memory.bytesAt]

@[simp] theorem store_size (m : Memory) (off : Nat) (v : Bytes) : (m.store off v).size = m.size := by
  induction v generalizing m off with
  | nil => rfl
  | cons b rest ih => rw [Memory.store, ih]

/-- R75: after a store, the stored bytes, and "bytes outside offset .. offset+n-1 are unchanged". -/
theorem byteAt_store (m : Memory) (off : Nat) (v : Bytes) (a : Nat) :
    (m.store off v).byteAt a = if off ≤ a then (v[a - off]?).getD (m.byteAt a) else m.byteAt a := by
  induction v generalizing m off with
  | nil => simp [Memory.store]
  | cons b rest ih =>
    rw [Memory.store, ih]
    have hb : ∀ c : Nat, Memory.byteAt { m with cells := mapWrite unlistedByte m.cells off b } c
        = if c = off then b else m.byteAt c := fun c => mapRead_mapWrite ..
    rw [hb]
    by_cases h1 : off + 1 ≤ a
    · rw [if_pos h1, if_neg (by omega), if_pos (by omega)]
      have : a - off = (a - (off + 1)) + 1 := by omega
      rw [this, List.getElem?_cons_succ]
    · rw [if_neg h1]
      by_cases h2 : a = off
      · subst h2; simp
      · rw [if_neg h2, if_neg (by omega)]

theorem byteAt_store_inside (m : Memory) (off : Nat) (v : Bytes) (i : Nat) (h : i < v.length) :
    (m.store off v).byteAt (off + i) = v[i] := by
  rw [byteAt_store, if_pos (Nat.le_add_right _ _), Nat.add_sub_cancel_left, List.getElem?_eq_getElem h]
  rfl

theorem byteAt_store_outside (m : Memory) (off : Nat) (v : Bytes) (a : Nat) (h : a < off ∨ off + v.length ≤ a) :
    (m.store off v).byteAt a = m.byteAt a := by
  rw [byteAt_store]
  split
  · rw [List.getElem?_eq_none (by omega)]; rfl
  · rfl

/-- R80: a store, then a read of the same bytes. -/
theorem bytesAt_store (m : Memory) (off : Nat) (v : Bytes) : (m.store off v).bytesAt off v.length = v := by
  apply List.ext_getElem
  · simp
  · intro i h1 h2
    simp only [Memory.bytesAt, List.getElem_map, List.getElem_range]
    exact byteAt_store_inside m off v i h2

theorem ceilRow_mod (n : Nat) : ceilRow n % 32 = 0 := by unfold ceilRow; omega

theorem le_ceilRow (n : Nat) : n ≤ ceilRow n := by unfold ceilRow; omega

/-- R71: the size never decreases. -/
theorem le_grownSize (p : Params) (size off n : Nat) : size ≤ grownSize p size off n := by
  unfold grownSize; split <;> omega

/-- R73: after an access of n > 0 bytes the size covers them. -/
theorem access_le_grownSize (p : Params) (size off n : Nat) (h : n ≠ 0) : off + n ≤ grownSize p size off n := by
  unfold grownSize
  rw [if_neg (by simp [h])]
  have := le_ceilRow (off + n)
  omega

theorem grownSize_mod (p : Params) (size off n : Nat) (h : size % 32 = 0) : grownSize p size off n % 32 = 0 := by
  unfold grownSize
  split
  · exact h
  · have := ceilRow_mod (off + n)
    rcases Nat.le_total size (ceilRow (off + n)) with hle | hle
    · rwa [Nat.max_eq_right hle]
    · rwa [Nat.max_eq_left hle]

theorem empty_wf : Memory.empty.wf := by decide

theorem grow_wf {m : Memory} (h : m.wf) (p : Params) (off n : Nat) : (m.grow p off n).wf :=
  ⟨h.1, h.2.1, grownSize_mod p m.size off n h.2.2.1,
    fun c hc => Nat.lt_of_lt_of_le (h.2.2.2 c hc) (le_grownSize p m.size off n)⟩

theorem store_wf {m : Memory} (h : m.wf) (off : Nat) (v : Bytes) (hv : v = [] ∨ off + v.length ≤ m.size) :
    (m.store off v).wf := by
  induction v generalizing m off with
  | nil => exact h
  | cons b rest ih =>
    have hv : off + (rest.length + 1) ≤ m.size := by simpa using hv
    refine ih (m := { m with cells := mapWrite unlistedByte m.cells off b })
      ⟨mapWrite_sorted h.1 .., fun c hc => ?_, h.2.2.1, fun c hc => ?_⟩ _ (.inr (by show off + 1 + rest.length ≤ m.size; omega))
    · rcases mem_mapWrite hc with ⟨he, hne⟩ | hm
      · subst he; exact hne
      · exact h.2.1 c hm
    · rcases mem_mapWrite hc with ⟨he, _⟩ | hm
      · subst he; show off < m.size; omega
      · exact h.2.2.2 c hm

/-- A store into memory grown for it keeps the canonical form. -/
theorem grow_store_wf {m : Memory} (h : m.wf) (p : Params) (off n : Nat) (v : Bytes) (hv : v.length = n) :
    ((m.grow p off n).store off v).wf := by
  refine store_wf (grow_wf h p off n) off v ?_
  by_cases hn : n = 0
  · left; exact List.length_eq_zero_iff.mp (hv.trans hn)
  · right; rw [hv]; exact access_le_grownSize p m.size off n hn

end Sys2Proof.Machine
end

