-- ==== Sys2Proof/Laws/State.lean ====
section
/-!
SUPPORT. One lemma per field per update of the state and of a frame, true by rfl, so that no later proof unfolds a
record update; and what the basic operations on the running frame answer.
-/

namespace Sys2Proof.Machine

variable (s : State) (f : Frame) (n : Nat) (st : List Word) (o : HaltOutcome) (k : FailureKind) (snap : Snapshot)

@[simp] theorem setTop_frames : (s.setTop f).frames = f :: s.frames.tail := rfl
@[simp] theorem setTop_runStatus : (s.setTop f).runStatus = s.runStatus := rfl
@[simp] theorem setTop_world : (s.setTop f).world = s.world := rfl
@[simp] theorem setTop_destruct : (s.setTop f).destruct = s.destruct := rfl
@[simp] theorem setTop_nonce : (s.setTop f).nonce = s.nonce := rfl
@[simp] theorem setTop_logs : (s.setTop f).logs = s.logs := rfl
@[simp] theorem setTop_tx : (s.setTop f).tx = s.tx := rfl
@[simp] theorem setTop_block : (s.setTop f).block = s.block := rfl
@[simp] theorem setTop_steps : (s.setTop f).steps = s.steps := rfl
@[simp] theorem setTop_result : (s.setTop f).result = s.result := rfl
@[simp] theorem setTop_lastFailure : (s.setTop f).lastFailure = s.lastFailure := rfl
@[simp] theorem setTop_params : (s.setTop f).params = s.params := rfl
@[simp] theorem setTop_freeCount : (s.setTop f).freeCount = s.freeCount := rfl

@[simp] theorem proceed_code : (f.proceed n st).code = f.code := rfl
@[simp] theorem proceed_jumpdests : (f.proceed n st).jumpdests = f.jumpdests := rfl
@[simp] theorem proceed_pc : (f.proceed n st).pc = f.pc + n := rfl
@[simp] theorem proceed_stack : (f.proceed n st).stack = st := rfl
@[simp] theorem proceed_memory : (f.proceed n st).memory = f.memory := rfl
@[simp] theorem proceed_address : (f.proceed n st).address = f.address := rfl
@[simp] theorem proceed_caller : (f.proceed n st).caller = f.caller := rfl
@[simp] theorem proceed_value : (f.proceed n st).value = f.value := rfl
@[simp] theorem proceed_calldata : (f.proceed n st).calldata = f.calldata := rfl
@[simp] theorem proceed_isStatic : (f.proceed n st).isStatic = f.isStatic := rfl
@[simp] theorem proceed_depth : (f.proceed n st).depth = f.depth := rfl
@[simp] theorem proceed_returndata : (f.proceed n st).returndata = f.returndata := rfl
@[simp] theorem proceed_status : (f.proceed n st).status = f.status := rfl
@[simp] theorem proceed_snapshot : (f.proceed n st).snapshot = f.snapshot := rfl
@[simp] theorem proceed_kind : (f.proceed n st).kind = f.kind := rfl

@[simp] theorem halt_code : (f.halt o).code = f.code := rfl
@[simp] theorem halt_jumpdests : (f.halt o).jumpdests = f.jumpdests := rfl
@[simp] theorem halt_pc : (f.halt o).pc = f.pc := rfl
@[simp] theorem halt_stack : (f.halt o).stack = f.stack := rfl
@[simp] theorem halt_memory : (f.halt o).memory = f.memory := rfl
@[simp] theorem halt_address : (f.halt o).address = f.address := rfl
@[simp] theorem halt_caller : (f.halt o).caller = f.caller := rfl
@[simp] theorem halt_value : (f.halt o).value = f.value := rfl
@[simp] theorem halt_calldata : (f.halt o).calldata = f.calldata := rfl
@[simp] theorem halt_isStatic : (f.halt o).isStatic = f.isStatic := rfl
@[simp] theorem halt_depth : (f.halt o).depth = f.depth := rfl
@[simp] theorem halt_returndata : (f.halt o).returndata = f.returndata := rfl
@[simp] theorem halt_status : (f.halt o).status = .halted o := rfl
@[simp] theorem halt_snapshot : (f.halt o).snapshot = f.snapshot := rfl
@[simp] theorem halt_kind : (f.halt o).kind = f.kind := rfl

@[simp] theorem rollback_frames : (rollback s snap).frames = s.frames := rfl
@[simp] theorem rollback_runStatus : (rollback s snap).runStatus = s.runStatus := rfl
@[simp] theorem rollback_world : (rollback s snap).world = snap.world := rfl
@[simp] theorem rollback_destruct : (rollback s snap).destruct = snap.destruct := rfl
@[simp] theorem rollback_logs :
    (rollback s snap).logs = if s.params.logsRollBack then s.logs.take snap.logCount else s.logs := rfl
@[simp] theorem rollback_nonce : (rollback s snap).nonce = s.nonce := rfl
@[simp] theorem rollback_tx : (rollback s snap).tx = s.tx := rfl
@[simp] theorem rollback_block : (rollback s snap).block = s.block := rfl
@[simp] theorem rollback_steps : (rollback s snap).steps = s.steps := rfl
@[simp] theorem rollback_result : (rollback s snap).result = s.result := rfl
@[simp] theorem rollback_lastFailure : (rollback s snap).lastFailure = s.lastFailure := rfl
@[simp] theorem rollback_params : (rollback s snap).params = s.params := rfl
@[simp] theorem rollback_freeCount : (rollback s snap).freeCount = s.freeCount := rfl

@[simp] theorem snapshotOf_world : (snapshotOf s).world = s.world := rfl
@[simp] theorem snapshotOf_destruct : (snapshotOf s).destruct = s.destruct := rfl
@[simp] theorem snapshotOf_logCount : (snapshotOf s).logCount = s.logs.length := rfl

/-- `settle` is `commit` for a success, and the rollback otherwise. -/
@[simp] theorem settle_ret (out : Bytes) : settle s (.ret out) snap = s := rfl
@[simp] theorem settle_revert (out : Bytes) : settle s (.revert out) snap = rollback s snap := rfl
@[simp] theorem settle_fail : settle s (.fail k) snap = rollback s snap := rfl

theorem failed_def : failed s f k = s.setTop (f.halt (.fail k)) := rfl

@[simp] theorem raise_def : raise s f k = .next (failed s f k) := rfl

variable {s f}

/-- Acting on the running frame of a state whose frame list is known. -/
theorem onTop_of_frames {fs : List Frame} (h : s.frames = f :: fs) (body : Frame → Out) : onTop s body = body f := by
  simp only [onTop, h]

/-- A length of 0 is within every bound. -/
@[simp] theorem fitsLimit_zero (limit : Option Nat) : fitsLimit limit 0 = true := by
  cases limit <;> simp [fitsLimit]

@[simp] theorem fitsLength_zero (p : Params) : fitsLength p 0 = true := fitsLimit_zero _

@[simp] theorem fitsPc_zero (p : Params) : fitsPc p 0 = true := fitsLimit_zero _

/-- What a bound means. -/
theorem fitsLimit_iff {limit : Option Nat} {n : Nat} : fitsLimit limit n = true ↔ ∀ m, limit = some m → n ≤ m := by
  cases limit <;> simp [fitsLimit]

/-- A memory access whose length and grown memory are within the bounds goes on with the grown memory. -/
theorem withGrown_of_fits {off len : Nat} {body : Memory → Out} (hl : fitsLength s.params len = true)
    (h : fitsCapacity s.params (f.memory.grow s.params off len).size = true) :
    withGrown s f off len body = body (f.memory.grow s.params off len) := by
  rw [withGrown, if_pos hl, if_pos h]

/-- All a memory access can do: go on with the grown memory, within the bounds, or refuse the run. -/
theorem withGrown_next {off len : Nat} {body : Memory → Out} {t : State}
    (h : withGrown s f off len body = .next t) :
    fitsLength s.params len = true ∧ fitsCapacity s.params (f.memory.grow s.params off len).size = true ∧
      body (f.memory.grow s.params off len) = .next t := by
  unfold withGrown at h
  split at h
  · split at h
    · exact ⟨‹_›, ‹_›, h⟩
    · cases h
  · cases h

end Sys2Proof.Machine
end

