-- ==== Sys2Proof/Laws/World.lean ====
section
/-!
SUPPORT. The laws of the world state (spec/10_state.md R43 to R48): reads after writes, and that every operation keeps
the canonical form and the bound on the lengths of the accounts' codes.
-/

namespace Sys2Proof.Machine

theorem toNat_inj_addr {A B : Addr} : A.toNat = B.toNat ↔ A = B :=
  ⟨fun h => BitVec.eq_of_toNat_eq h, fun h => h ▸ rfl⟩

/-- Reading an account after one is written. -/
theorem accountAt_putAccount (w : World) (A B : Addr) (a : Account) :
    accountAt (putAccount w A a) B = if B = A then a else accountAt w B := by
  simp only [accountAt, putAccount, mapRead_mapPut, toNat_inj_addr]

theorem balanceOf_setBalance (w : World) (A B : Addr) (n : Word) :
    balanceOf (setBalance w A n) B = if B = A then n else balanceOf w B := by
  unfold balanceOf setBalance; rw [accountAt_putAccount]; split <;> rfl

theorem codeOf_setBalance (w : World) (A B : Addr) (n : Word) : codeOf (setBalance w A n) B = codeOf w B := by
  unfold codeOf setBalance; rw [accountAt_putAccount]; split
  · subst B; rfl
  · rfl

theorem storageAt_setBalance (w : World) (A B : Addr) (n k : Word) :
    storageAt (setBalance w A n) B k = storageAt w B k := by
  unfold storageAt setBalance; rw [accountAt_putAccount]; split
  · subst B; rfl
  · rfl

/-- R45, R291: a load after a store: the stored value at that account and key, the old value everywhere else. -/
theorem storageAt_sstore (w : World) (A B : Addr) (k j v : Word) :
    storageAt (sstore w A k v) B j = if B = A ∧ j = k then v else storageAt w B j := by
  unfold storageAt sstore
  rw [accountAt_putAccount]
  by_cases hB : B = A
  · subst B
    have hj : j.toNat = k.toNat ↔ j = k := ⟨fun h => BitVec.eq_of_toNat_eq h, fun h => h ▸ rfl⟩
    simp only [if_true, mapRead_mapWrite, true_and, hj]
  · simp [hB]

theorem balanceOf_sstore (w : World) (A B : Addr) (k v : Word) : balanceOf (sstore w A k v) B = balanceOf w B := by
  unfold balanceOf sstore; rw [accountAt_putAccount]; split
  · subst B; rfl
  · rfl

theorem codeOf_sstore (w : World) (A B : Addr) (k v : Word) : codeOf (sstore w A k v) B = codeOf w B := by
  unfold codeOf sstore; rw [accountAt_putAccount]; split
  · subst B; rfl
  · rfl

theorem zero_account_wf : Account.zero.wf := by decide

theorem accountAt_wf {w : World} (h : worldWf w) (A : Addr) : (accountAt w A).wf := by
  rcases mapRead_cases Account.zero w A.toNat with he | he
  · unfold accountAt; rw [he]; exact zero_account_wf
  · exact (h.2 _ he).1

theorem putAccount_wf {w : World} (h : worldWf w) (A : Addr) {a : Account} (ha : a.wf) : worldWf (putAccount w A a) :=
  ⟨mapPut_sorted h.1 .., fun e he => (mem_mapPut he).elim (fun hq => hq ▸ ⟨ha, A.isLt⟩) (h.2 e)⟩

theorem setBalance_wf {w : World} (h : worldWf w) (A : Addr) (n : Word) : worldWf (setBalance w A n) :=
  putAccount_wf h A (accountAt_wf h A)

theorem credit_wf {w : World} (h : worldWf w) (A : Addr) (n : Word) : worldWf (credit w A n) := setBalance_wf h ..

theorem debit_wf {w : World} (h : worldWf w) (A : Addr) (n : Word) : worldWf (debit w A n) := setBalance_wf h ..

theorem setCode_wf {w : World} (h : worldWf w) (A : Addr) (code : Bytes) : worldWf (setCode w A code) :=
  putAccount_wf h A (accountAt_wf h A)

theorem deploy_wf {w : World} (h : worldWf w) (N : Addr) (v : Word) (out : Bytes) : worldWf (deploy w N v out) :=
  setBalance_wf (setCode_wf h ..) ..

theorem sstore_wf {w : World} (h : worldWf w) (A : Addr) (k v : Word) : worldWf (sstore w A k v) := by
  have ha := accountAt_wf h A
  refine putAccount_wf h A ⟨mapWrite_sorted ha.1 .., fun e he => ?_⟩
  rcases mem_mapWrite he with ⟨hq, hv⟩ | hm
  · subst hq; exact ⟨hv, k.isLt⟩
  · exact ha.2 e hm

theorem transfer_wf {w : World} (h : worldWf w) (payer : Option Addr) (T : Addr) (v : Word) :
    worldWf (transfer w payer T v) := by
  unfold transfer
  split
  · split
    · exact h
    · exact credit_wf (debit_wf h ..) ..
  · exact h

@[simp] theorem transfer_zero (w : World) (payer : Option Addr) (T : Addr) : transfer w payer T 0 = w := by
  unfold transfer; split <;> simp

theorem createAccount_wf {w : World} (h : worldWf w) (creator N : Addr) (v : Word) :
    worldWf (createAccount w creator N v) :=
  putAccount_wf (debit_wf h ..) N ⟨List.Pairwise.nil, fun _ he => absurd he List.not_mem_nil⟩

theorem removeAll_wf {w : World} (h : worldWf w) (marked : List Addr) : worldWf (removeAll w marked) := by
  unfold removeAll
  induction marked generalizing w with
  | nil => exact h
  | cons A rest ih => exact ih ⟨mapErase_sorted h.1 .., fun e he => h.2 e (mem_mapErase he)⟩

theorem buildWorld_wf (state : List (Addr × AccountInput)) : worldWf (buildWorld state) := by
  have go : ∀ (l : List (Addr × AccountInput)) (w : World), worldWf w →
      worldWf (l.foldl (fun w entry => putAccount w entry.1 entry.2.account) w) := by
    intro l
    induction l with
    | nil => exact fun _ h => h
    | cons e rest ih =>
      exact fun w h => ih _ (putAccount_wf h e.1 ⟨List.Pairwise.nil, fun _ he => absurd he List.not_mem_nil⟩)
  exact go state [] ⟨List.Pairwise.nil, fun _ he => absurd he List.not_mem_nil⟩

/-! ## The lengths of the codes (R393) -/

section
variable {p : Params} {w : World}

theorem codeOf_fits (h : codesFit p w) (A : Addr) : fitsLength p (codeOf w A).length = true := by
  unfold codeOf accountAt
  rcases mapRead_cases Account.zero w A.toNat with he | he
  · rw [he]; exact fitsLength_zero p
  · exact h _ he

theorem putAccount_codes (h : codesFit p w) (A : Addr) {a : Account} (ha : fitsLength p a.code.length = true) :
    codesFit p (putAccount w A a) :=
  fun e he => (mem_mapPut he).elim (fun hq => hq ▸ ha) (h e)

theorem setBalance_codes (h : codesFit p w) (A : Addr) (n : Word) : codesFit p (setBalance w A n) :=
  putAccount_codes h A (codeOf_fits h A)

theorem credit_codes (h : codesFit p w) (A : Addr) (n : Word) : codesFit p (credit w A n) := setBalance_codes h _ _

theorem debit_codes (h : codesFit p w) (A : Addr) (n : Word) : codesFit p (debit w A n) := setBalance_codes h _ _

theorem sstore_codes (h : codesFit p w) (A : Addr) (k v : Word) : codesFit p (sstore w A k v) :=
  putAccount_codes h A (codeOf_fits h A)

theorem transfer_codes (h : codesFit p w) (payer : Option Addr) (T : Addr) (v : Word) :
    codesFit p (transfer w payer T v) := by
  unfold transfer
  split
  · split
    · exact h
    · exact credit_codes (debit_codes h _ _) _ _
  · exact h

theorem createAccount_codes (h : codesFit p w) (creator N : Addr) (v : Word) :
    codesFit p (createAccount w creator N v) :=
  putAccount_codes (debit_codes h _ _) N (fitsLength_zero p)

theorem deploy_codes (h : codesFit p w) (N : Addr) (v : Word) {out : Bytes}
    (ho : fitsLength p out.length = true) : codesFit p (deploy w N v out) :=
  setBalance_codes (putAccount_codes (a := { accountAt w N with code := out }) h N ho) _ _

theorem removeAll_codes (h : codesFit p w) (marked : List Addr) : codesFit p (removeAll w marked) := by
  unfold removeAll
  induction marked generalizing w with
  | nil => exact h
  | cons A rest ih => exact ih fun e he => h e (mem_mapErase he)

theorem buildWorld_codes (state : List (Addr × AccountInput))
    (h : ∀ e ∈ state, fitsLength p (e.2.code.getD []).length = true) : codesFit p (buildWorld state) := by
  have go : ∀ (l : List (Addr × AccountInput)) (w : World), (∀ e ∈ l, fitsLength p (e.2.code.getD []).length = true) →
      codesFit p w → codesFit p (l.foldl (fun w entry => putAccount w entry.1 entry.2.account) w) := by
    intro l
    induction l with
    | nil => exact fun _ _ hw => hw
    | cons e rest ih =>
      exact fun w hl hw => ih _ (fun x hx => hl x (List.mem_cons_of_mem _ hx))
        (putAccount_codes hw e.1 (hl e List.mem_cons_self))
  exact go state [] h (fun _ he => absurd he List.not_mem_nil)

end

theorem nonceWrite_wf {m : SMap Nat} (h : nonceWf m) (i n : Nat) : nonceWf (mapWrite 0 m i n) :=
  ⟨mapWrite_sorted h.1 .., fun e he => (mem_mapWrite he).elim (fun hq => hq.1 ▸ hq.2) (h.2 e)⟩

end Sys2Proof.Machine
end

