-- ==== Sys2Proof/Laws/Effect.lean ====
section
/-!
SUPPORT. Everything an instruction can do, said once: `Effect`, and that every meaning's next state is one of its
cases. Statements about all instructions follow from it without unfolding a meaning.
-/

namespace Sys2Proof.Machine

/-- The fields of a frame that no instruction of the frame changes (R27, R280). -/
structure SameFrame (f g : Frame) : Prop where
  code : g.code = f.code
  jumpdests : g.jumpdests = f.jumpdests
  address : g.address = f.address
  caller : g.caller = f.caller
  value : g.value = f.value
  calldata : g.calldata = f.calldata
  isStatic : g.isStatic = f.isStatic
  depth : g.depth = f.depth
  snapshot : g.snapshot = f.snapshot
  kind : g.kind = f.kind

/-- What a completed instruction of `len` bytes can do to its frame. -/
structure FrameStep (p : Params) (len : Nat) (f g : Frame) : Prop where
  same : SameFrame f g
  /-- R240, R247: sequential advance, or one past a valid target -/
  pc : g.pc = f.pc + len ∨ (∃ t ∈ f.jumpdests, g.pc = t + 1) ∧ fitsPc p g.pc = true
  memory : f.memory.wf → g.memory.wf
  /-- R71 -/
  size : f.memory.size ≤ g.memory.size
  capacity : fitsCapacity p f.memory.size = true → fitsCapacity p g.memory.size = true
  stack : f.stack.length ≤ p.stackLimit → g.stack.length ≤ p.stackLimit
  /-- R39: kept, or emptied by a call or creation that made no frame -/
  returndata : g.returndata = f.returndata ∨ g.returndata = []
  /-- the frame goes on, or is halted on purpose, with an output whose length the registers hold (R393) -/
  status : g.status = f.status ∨ ∃ out, (g.status = .halted (.ret out) ∨ g.status = .halted (.revert out)) ∧
    fitsLength p out.length = true

/-- R306: what every child made by the frame `f` in the state `s` is like. -/
structure ChildOf (s : State) (f k : Frame) : Prop where
  status : k.status = .running
  pc : k.pc = 0
  stack : k.stack = []
  memory : k.memory = Memory.empty
  returndata : k.returndata = []
  targets : k.jumpdests = jumpdests k.code
  kind : k.kind ≠ .top
  created : ∀ N v, k.kind = .create N v → k.isStatic = false
  depth : k.depth = f.depth + 1
  limit : k.depth ≤ s.params.depthLimit
  isStatic : f.isStatic = true → k.isStatic = true
  snapshot : k.snapshot = snapshotOf s
  /-- R393 -/
  codeLength : codesFit s.params s.world → fitsLength s.params k.code.length = true
  calldataLength : fitsLength s.params k.calldata.length = true

/-- Everything an instruction of `len` bytes, executed on the running frame `f` of `s`, can do when it answers a next
state. -/
inductive Effect (len : Nat) (s : State) (f : Frame) : State → Prop where
  /-- the frame fails -/
  | failed (k : FailureKind) : Effect len s f (failed s f k)
  /-- only the frame changes -/
  | moved (g : Frame) : FrameStep s.params len f g → Effect len s f (s.setTop g)
  /-- the frame, the world, the marked accounts and the logs change; never in a static frame -/
  | mutated (g : Frame) (w : World) (d : List Addr) (new : List Log) :
      f.isStatic = false → FrameStep s.params len f g → (worldWf s.world → worldWf w) →
      (codesFit s.params s.world → codesFit s.params w) → (addrSetWf s.destruct → addrSetWf d) →
      (∀ e ∈ new, e.topics.length ≤ 4 ∧ fitsLength s.params e.data.length = true) →
      Effect len s f { s.setTop g with world := w, destruct := d, logs := s.logs ++ new }
  /-- a child is entered and the frame is suspended -/
  | entered (k g : Frame) (w : World) (nonce : SMap Nat) :
      FrameStep s.params len f g → g.status = f.status → g.stack.length < f.stack.length → ChildOf s f k →
      (worldWf s.world → worldWf w) → (codesFit s.params s.world → codesFit s.params w) →
      (k.isStatic = true → w = s.world) → (nonceWf s.nonce → nonceWf nonce) →
      (∀ a, mapRead 0 s.nonce a ≤ mapRead 0 nonce a) →
      Effect len s f { s with nonce := nonce, world := w, frames := k :: g :: s.frames.tail }

variable {s t : State} {f : Frame} {fs : List Frame}

/-- The plain advance with a stack that is no longer than allowed. -/
theorem proceed_step (len : Nat) (st : List Word)
    (h : f.stack.length ≤ s.params.stackLimit → st.length ≤ s.params.stackLimit) :
    FrameStep s.params len f (f.proceed len st) :=
  ⟨⟨rfl, rfl, rfl, rfl, rfl, rfl, rfl, rfl, rfl, rfl⟩, .inl rfl, id, Nat.le_refl _, id, h, .inl rfl, .inl rfl⟩

/-- The advance with the memory grown and `v` stored into the region it was grown for. -/
theorem proceed_store_step (len : Nat) (st : List Word) (off : Nat) (v : Bytes)
    (hf : fitsCapacity s.params (f.memory.grow s.params off v.length).size = true)
    (h : f.stack.length ≤ s.params.stackLimit → st.length ≤ s.params.stackLimit) :
    FrameStep s.params len f
      { f.proceed len st with memory := (f.memory.grow s.params off v.length).store off v } :=
  ⟨⟨rfl, rfl, rfl, rfl, rfl, rfl, rfl, rfl, rfl, rfl⟩, .inl rfl, fun hw => grow_store_wf hw s.params off _ v rfl,
    by rw [store_size]; exact le_grownSize s.params f.memory.size off v.length, fun _ => by rw [store_size]; exact hf, h,
    .inl rfl, .inl rfl⟩

/-- The advance with the memory grown. -/
theorem proceed_grow_step (len : Nat) (st : List Word) (off n : Nat)
    (hf : fitsCapacity s.params (f.memory.grow s.params off n).size = true)
    (h : f.stack.length ≤ s.params.stackLimit → st.length ≤ s.params.stackLimit) :
    FrameStep s.params len f { f.proceed len st with memory := f.memory.grow s.params off n } :=
  ⟨⟨rfl, rfl, rfl, rfl, rfl, rfl, rfl, rfl, rfl, rfl⟩, .inl rfl, fun hw => grow_wf hw s.params off n,
    le_grownSize s.params f.memory.size off n, fun _ => hf, h, .inl rfl, .inl rfl⟩

/-- A deliberate halt after a step. -/
theorem FrameStep.halted {len : Nat} {g : Frame} (h : FrameStep s.params len f g) (o : HaltOutcome)
    (ho : ∃ out, (o = .ret out ∨ o = .revert out) ∧ fitsLength s.params out.length = true) :
    FrameStep s.params len f (g.halt o) :=
  ⟨⟨h.same.code, h.same.jumpdests, h.same.address, h.same.caller, h.same.value, h.same.calldata, h.same.isStatic,
      h.same.depth, h.same.snapshot, h.same.kind⟩, h.pc, h.memory, h.size, h.capacity, h.stack,
    h.returndata, .inr (ho.elim fun out ⟨hq, hl⟩ => ⟨out, hq.imp (congrArg _) (congrArg _), hl⟩)⟩

/-- A raised failure is the failure case. -/
theorem raise_effect {len : Nat} {k : FailureKind} (hx : raise s f k = .next t) : Effect len s f t := by
  cases hx; exact .failed k

theorem plainOp_effect (h : s.frames = f :: fs) (hx : plainOp s = .next t) : Effect 1 s f t := by
  rw [plainOp, onTop_of_frames h] at hx
  cases hx
  exact .moved _ (proceed_step 1 _ id)

theorem unaryOp_effect {g} (h : s.frames = f :: fs) (hx : unaryOp g s = .next t) : Effect 1 s f t := by
  rw [unaryOp, onTop_of_frames h] at hx
  split at hx
  · rename_i a st hst
    cases hx
    exact .moved _ (proceed_step 1 _ (by rw [hst]; exact id))
  · exact raise_effect hx

theorem binaryOp_effect {g} (h : s.frames = f :: fs) (hx : binaryOp g s = .next t) : Effect 1 s f t := by
  rw [binaryOp, onTop_of_frames h] at hx
  split at hx
  · rename_i a b st hst
    cases hx
    exact .moved _ (proceed_step 1 _ (by rw [hst]; simp only [List.length_cons]; omega))
  · exact raise_effect hx

theorem ternaryOp_effect {g} (h : s.frames = f :: fs) (hx : ternaryOp g s = .next t) : Effect 1 s f t := by
  rw [ternaryOp, onTop_of_frames h] at hx
  split at hx
  · rename_i a b c st hst
    cases hx
    exact .moved _ (proceed_step 1 _ (by rw [hst]; simp only [List.length_cons]; omega))
  · exact raise_effect hx

theorem pushOp_effect {len v} (h : s.frames = f :: fs) (hx : pushOp len v s = .next t) : Effect len s f t := by
  rw [pushOp, onTop_of_frames h] at hx
  split at hx
  · split at hx
    · cases hx
      exact .moved _ (proceed_step len _ (fun _ => by simp only [List.length_cons]; omega))
    · exact raise_effect hx
  · exact raise_effect hx

theorem popOp_effect (h : s.frames = f :: fs) (hx : popOp s = .next t) : Effect 1 s f t := by
  rw [popOp, onTop_of_frames h] at hx
  split at hx
  · rename_i a st hst
    cases hx
    exact .moved _ (proceed_step 1 _ (by rw [hst]; simp only [List.length_cons]; omega))
  · exact raise_effect hx

theorem dupOp_effect {n} (h : s.frames = f :: fs) (hx : dupOp n s = .next t) : Effect 1 s f t := by
  rw [dupOp, onTop_of_frames h] at hx
  split at hx
  · split at hx
    · cases hx
      exact .moved _ (proceed_step 1 _ (fun _ => by simp only [List.length_cons]; omega))
    · exact raise_effect hx
  · exact raise_effect hx

theorem swapOp_effect {n} (h : s.frames = f :: fs) (hx : swapOp n s = .next t) : Effect 1 s f t := by
  rw [swapOp, onTop_of_frames h] at hx
  split at hx
  · rename_i a st hst
    split at hx
    · cases hx
      exact .moved _ (proceed_step 1 _ (by rw [hst]; simp))
    · exact raise_effect hx
  · exact raise_effect hx

theorem copyOp_effect {buf ok} (h : s.frames = f :: fs) (hx : copyOp buf ok s = .next t) : Effect 1 s f t := by
  rw [copyOp, onTop_of_frames h] at hx
  split at hx
  · rename_i d src n st hst
    split at hx
    · obtain ⟨hl, hf, hx⟩ := withGrown_next hx
      cases hx
      have := proceed_store_step (s := s) (f := f) 1 st d.toNat (padRead (buf f) src.toNat n.toNat)
        (by simpa using hf) (by rw [hst]; simp only [List.length_cons]; omega)
      exact .moved _ (by simpa using this)
    · exact raise_effect hx
  · exact raise_effect hx

theorem haltWithOutput_effect {oc : Bytes → HaltOutcome}
    (ho : ∀ out, oc out = .ret out ∨ oc out = .revert out) (h : s.frames = f :: fs)
    (hx : haltWithOutput oc s = .next t) : Effect 1 s f t := by
  rw [haltWithOutput, onTop_of_frames h] at hx
  split at hx
  · rename_i off n st hst
    obtain ⟨hl, hf, hx⟩ := withGrown_next hx
    cases hx
    exact .moved _ ((proceed_grow_step 1 st off.toNat n.toNat hf
      (by rw [hst]; simp only [List.length_cons]; omega)).halted _ ⟨_, ho _, by rw [bytesAt_length]; exact hl⟩)
  · exact raise_effect hx

theorem jumpTo_effect {a : Word} {st : List Word} (hl : st.length ≤ f.stack.length)
    (hx : jumpTo s f a st = .next t) : Effect 1 s f t := by
  unfold jumpTo at hx
  split at hx
  · split at hx
    · cases hx
      exact .moved _ ⟨⟨rfl, rfl, rfl, rfl, rfl, rfl, rfl, rfl, rfl, rfl⟩, .inr ⟨⟨_, ‹_›, rfl⟩, ‹_›⟩, id, Nat.le_refl _,
        id, fun h => Nat.le_trans hl h, .inl rfl, .inl rfl⟩
    · cases hx
  · exact raise_effect hx

theorem execStop_effect (h : s.frames = f :: fs) (hx : execStop s = .next t) : Effect 1 s f t := by
  rw [execStop, onTop_of_frames h] at hx
  cases hx
  exact .moved _ ((proceed_step 1 _ id).halted _ ⟨[], .inl rfl, fitsLength_zero _⟩)

theorem execJump_effect (h : s.frames = f :: fs) (hx : execJump s = .next t) : Effect 1 s f t := by
  rw [execJump, onTop_of_frames h] at hx
  split at hx
  · rename_i a st hst
    exact jumpTo_effect (by rw [hst]; simp) hx
  · exact raise_effect hx

theorem execJumpi_effect (h : s.frames = f :: fs) (hx : execJumpi s = .next t) : Effect 1 s f t := by
  rw [execJumpi, onTop_of_frames h] at hx
  split at hx
  · rename_i a c st hst
    split at hx
    · exact jumpTo_effect (by rw [hst]; simp only [List.length_cons]; omega) hx
    · cases hx
      exact .moved _ (proceed_step 1 _ (by rw [hst]; simp only [List.length_cons]; omega))
  · exact raise_effect hx

theorem execMload_effect (h : s.frames = f :: fs) (hx : execMload s = .next t) : Effect 1 s f t := by
  rw [execMload, onTop_of_frames h] at hx
  split at hx
  · rename_i o st hst
    obtain ⟨hl, hf, hx⟩ := withGrown_next hx
    cases hx
    exact .moved _ (proceed_grow_step 1 _ _ _ hf (by rw [hst]; simp))
  · exact raise_effect hx

theorem execSha3_effect (h : s.frames = f :: fs) (hx : execSha3 s = .next t) : Effect 1 s f t := by
  rw [execSha3, onTop_of_frames h] at hx
  split at hx
  · rename_i o n st hst
    obtain ⟨hl, hf, hx⟩ := withGrown_next hx
    cases hx
    exact .moved _ (proceed_grow_step 1 _ _ _ hf (by rw [hst]; simp only [List.length_cons]; omega))
  · exact raise_effect hx

theorem execMstore_effect (h : s.frames = f :: fs) (hx : execMstore s = .next t) : Effect 1 s f t := by
  rw [execMstore, onTop_of_frames h] at hx
  split at hx
  · rename_i o w st hst
    obtain ⟨hl, hf, hx⟩ := withGrown_next hx
    cases hx
    have := proceed_store_step (s := s) (f := f) 1 st o.toNat (wordBytes w)
      (by simpa [wordBytes] using hf) (by rw [hst]; simp only [List.length_cons]; omega)
    exact .moved _ (by simpa [wordBytes] using this)
  · exact raise_effect hx

theorem execMstore8_effect (h : s.frames = f :: fs) (hx : execMstore8 s = .next t) : Effect 1 s f t := by
  rw [execMstore8, onTop_of_frames h] at hx
  split at hx
  · rename_i o w st hst
    obtain ⟨hl, hf, hx⟩ := withGrown_next hx
    cases hx
    exact .moved _ (proceed_store_step (s := s) (f := f) 1 st o.toNat [BitVec.ofNat 8 (w.toNat % 256)]
      hf (by rw [hst]; simp only [List.length_cons]; omega))
  · exact raise_effect hx

theorem execExtcodecopy_effect (h : s.frames = f :: fs) (hx : execExtcodecopy s = .next t) : Effect 1 s f t := by
  rw [execExtcodecopy, onTop_of_frames h] at hx
  split at hx
  · rename_i a d src n st hst
    obtain ⟨hl, hf, hx⟩ := withGrown_next hx
    cases hx
    have := proceed_store_step (s := s) (f := f) 1 st d.toNat
      (padRead (codeOf s.world (toAddr a)) src.toNat n.toNat)
      (by simpa using hf) (by rw [hst]; simp only [List.length_cons]; omega)
    exact .moved _ (by simpa using this)
  · exact raise_effect hx

theorem execSload_effect (h : s.frames = f :: fs) (hx : execSload s = .next t) : Effect 1 s f t := by
  rw [execSload, onTop_of_frames h] at hx
  split at hx
  · rename_i k st hst
    split at hx
    · cases hx
      exact .moved _ (proceed_step 1 _ (by rw [hst]; exact id))
    · exact raise_effect hx
  · exact raise_effect hx

theorem execSstore_effect (h : s.frames = f :: fs) (hx : execSstore s = .next t) : Effect 1 s f t := by
  rw [execSstore, onTop_of_frames h] at hx
  split at hx
  · rename_i k v st hst
    split at hx
    · exact raise_effect hx
    · split at hx
      · rename_i A hA
        cases hx
        have := Effect.mutated (len := 1) (s := s) (f := f) (f.proceed 1 st) (sstore s.world A k v) s.destruct []
          (by simpa using ‹¬f.isStatic = true›)
          (proceed_step 1 _ (by rw [hst]; simp only [List.length_cons]; omega)) (fun hw => sstore_wf hw ..)
          (fun hw => sstore_codes hw _ _ _) id (fun _ he => absurd he List.not_mem_nil)
        simpa [State.setTop] using this
      · exact raise_effect hx
  · exact raise_effect hx

theorem logOp_effect {n : Nat} (hn : n ≤ 4) (h : s.frames = f :: fs) (hx : logOp n s = .next t) : Effect 1 s f t := by
  rw [logOp, onTop_of_frames h] at hx
  split at hx
  · rename_i o size st hst
    split at hx
    · exact raise_effect hx
    · split at hx
      · exact raise_effect hx
      · split at hx
        · obtain ⟨hl, hf, hx⟩ := withGrown_next hx
          cases hx
          exact .mutated _ s.world s.destruct [_] (by simpa using ‹¬f.isStatic = true›)
            (proceed_grow_step 1 _ _ _ hf (by rw [hst]; simp only [List.length_cons, List.length_drop]; omega)) id id id
            (fun e he => by
              rw [List.mem_singleton.mp he]
              exact ⟨Nat.le_trans (List.length_take_le ..) hn, by rw [bytesAt_length]; exact hl⟩)
        · exact raise_effect hx
  · exact raise_effect hx

/-- R313: a call or creation that makes no frame only moves its own frame. -/
theorem withoutFrame_effect {st : List Word} (hl : st.length < f.stack.length)
    (hx : withoutFrame s f st = .next t) : Effect 1 s f t := by
  cases hx
  exact .moved _ ⟨⟨rfl, rfl, rfl, rfl, rfl, rfl, rfl, rfl, rfl, rfl⟩, .inl rfl, id, Nat.le_refl _, id,
    fun h => by simp only [proceed_stack, List.length_cons]; omega, .inr rfl, .inl rfl⟩

theorem callOp_effect {c : CallOperands} {child : ChildContext} (hl : c.rest.length < f.stack.length)
    (hk : child.kind ≠ .top) (hc : ∀ N v, child.kind ≠ .create N v) (hs : f.isStatic = true → child.isStatic = true)
    (hv : child.isStatic = true → c.value = 0) (hx : callOp s f c child = .next t) : Effect 1 s f t := by
  unfold callOp at hx
  split at hx
  · exact withoutFrame_effect hl hx
  · rename_i hb
    obtain ⟨hl', hf, hx⟩ := withGrown_next hx
    cases hx
    have hd : f.depth + 1 ≤ s.params.depthLimit := by
      unfold callBlocked at hb
      split at hb
      · cases hb
      · split at hb
        · cases hb
        · omega
    exact .entered _ _ _ s.nonce (proceed_grow_step 1 _ _ _ hf (fun h => by omega)) rfl hl
      ⟨rfl, rfl, rfl, rfl, rfl, rfl, hk, fun N v h => absurd h (hc N v), rfl, hd, hs, rfl, fun hw => codeOf_fits hw _,
        (bytesAt_length ..).symm ▸ hl'⟩ (fun hw => transfer_wf hw ..) (fun hw => transfer_codes hw _ _ _)
      (fun h => by rw [hv h, transfer_zero]) id (fun _ => Nat.le_refl _)

theorem popCall_rest {g : Bool} {st : List Word} {c : CallOperands} (h : popCall g st = some c) :
    c.rest.length < st.length := by
  unfold popCall at h
  split at h
  · rename_i a v x1 x2 x3 x4 rest hd
    cases h
    unfold dropGas at hd
    split at hd <;> cases hd <;> simp only [List.length_cons] <;> omega
  · cases h

theorem popCallNoValue_rest {g : Bool} {st : List Word} {c : CallOperands} (h : popCallNoValue g st = some c) :
    c.rest.length < st.length ∧ c.value = 0 := by
  unfold popCallNoValue at h
  split at h
  · rename_i a x1 x2 x3 x4 rest hd
    cases h
    unfold dropGas at hd
    split at hd <;> cases hd <;> simp only [List.length_cons, and_true] <;> omega
  · cases h

theorem execCall_effect (h : s.frames = f :: fs) (hx : execCall s = .next t) : Effect 1 s f t := by
  rw [execCall, onTop_of_frames h] at hx
  split at hx
  · exact raise_effect hx
  · rename_i c hc
    split at hx
    · exact raise_effect hx
    · rename_i hst
      split at hx
      · exact raise_effect hx
      · exact callOp_effect (popCall_rest hc) (by simp) (by simp) id
          (fun hs => by
            by_contra hne
            exact hst ⟨hs, hne⟩) hx

theorem execDelegatecall_effect (h : s.frames = f :: fs) (hx : execDelegatecall s = .next t) : Effect 1 s f t := by
  rw [execDelegatecall, onTop_of_frames h] at hx
  split at hx
  · exact raise_effect hx
  · rename_i c hc
    obtain ⟨hl, hv⟩ := popCallNoValue_rest hc
    exact callOp_effect hl (by simp) (by simp) id (fun _ => hv) hx

theorem execStaticcall_effect (h : s.frames = f :: fs) (hx : execStaticcall s = .next t) : Effect 1 s f t := by
  rw [execStaticcall, onTop_of_frames h] at hx
  split at hx
  · exact raise_effect hx
  · rename_i c hc
    obtain ⟨hl, hv⟩ := popCallNoValue_rest hc
    exact callOp_effect hl (by simp) (by simp) (fun _ => rfl) (fun _ => hv) hx

theorem execCreate_effect (h : s.frames = f :: fs) (hx : execCreate s = .next t) : Effect 1 s f t := by
  rw [execCreate, onTop_of_frames h] at hx
  split at hx
  · rename_i v off size st hst
    split at hx
    · exact raise_effect hx
    · rename_i hns
      split at hx
      · exact raise_effect hx
      · rename_i A hA
        split at hx
        · exact withoutFrame_effect (by rw [hst]; simp only [List.length_cons]; omega) hx
        · rename_i hb
          obtain ⟨hl, hf, hx⟩ := withGrown_next hx
          cases hx
          have hd : f.depth + 1 ≤ s.params.depthLimit := by
            unfold createBlocked at hb
            split at hb
            · cases hb
            · omega
          exact .entered _ _ _ _
            (proceed_grow_step 1 _ _ _ hf (by rw [hst]; simp only [List.length_cons]; omega)) rfl
            (by rw [hst]; simp only [proceed_stack, List.length_cons]; omega)
            ⟨rfl, rfl, rfl, rfl, rfl, rfl, by simp [freshFrame], fun _ _ _ => rfl, rfl, hd, fun hs => absurd hs hns, rfl,
              fun _ => (bytesAt_length ..).symm ▸ hl, fitsLength_zero _⟩
            (fun hw => createAccount_wf hw ..) (fun hw => createAccount_codes hw _ _ _) (fun hs => by simp [freshFrame] at hs)
            (fun hw => nonceWrite_wf hw ..)
            (fun a => by
              rw [mapRead_mapWrite]
              split
              · subst a; exact Nat.le_succ _
              · exact Nat.le_refl _)
  · exact raise_effect hx

theorem execSelfdestruct_effect (h : s.frames = f :: fs) (hx : execSelfdestruct s = .next t) : Effect 1 s f t := by
  rw [execSelfdestruct, onTop_of_frames h] at hx
  split at hx
  · rename_i b st hst
    split at hx
    · exact raise_effect hx
    · split at hx
      · exact raise_effect hx
      · rename_i A hA
        cases hx
        have := Effect.mutated (len := 1) (s := s) (f := f) ((f.proceed 1 st).halt (.ret []))
          (credit (debit s.world A (balanceOf s.world A)) (toAddr b) (balanceOf s.world A)) (addrInsert A s.destruct) []
          (by simpa using ‹¬f.isStatic = true›)
          ((proceed_step 1 _ (by rw [hst]; simp only [List.length_cons]; omega)).halted _ ⟨[], .inl rfl, fitsLength_zero _⟩)
          (fun hw => credit_wf (debit_wf hw ..) ..) (fun hw => credit_codes (debit_codes hw _ _) _ _) (fun hd => addrInsert_sorted hd _)
          (fun _ he => absurd he List.not_mem_nil)
        simpa [State.setTop] using this
  · exact raise_effect hx

/-- Every instruction that answers a next state is one of the cases of `Effect`. -/
theorem exec_effect {i : Instr} (h : s.frames = f :: fs) (hx : exec i s = .next t) : Effect i.length s f t := by
  cases i with
  | add | mul | sub | div | sdiv | mod | smod | exp | signextend | lt | gt | slt | sgt | eq | and | or | xor | byte
  | shl | shr | sar => exact binaryOp_effect h hx
  | addmod | mulmod => exact ternaryOp_effect h hx
  | dup1 | dup2 | dup3 | dup4 | dup5 | dup6 | dup7 | dup8 | dup9 | dup10 | dup11 | dup12 | dup13 | dup14 | dup15
  | dup16 => exact dupOp_effect h hx
  | swap1 | swap2 | swap3 | swap4 | swap5 | swap6 | swap7 | swap8 | swap9 | swap10 | swap11 | swap12 | swap13
  | swap14 | swap15 | swap16 => exact swapOp_effect h hx
  | stop => exact execStop_effect h hx
  | iszero => exact unaryOp_effect h (show execIszero s = .next t from hx)
  | not => exact unaryOp_effect h (show execNot s = .next t from hx)
  | sha3 => exact execSha3_effect h hx
  | address => exact pushOp_effect h (show execAddress s = .next t from hx)
  | balance => exact unaryOp_effect h (show execBalance s = .next t from hx)
  | origin => exact pushOp_effect h (show execOrigin s = .next t from hx)
  | caller => exact pushOp_effect h (show execCaller s = .next t from hx)
  | callvalue => exact pushOp_effect h (show execCallvalue s = .next t from hx)
  | calldataload => exact unaryOp_effect h (show execCalldataload s = .next t from hx)
  | calldatasize => exact pushOp_effect h (show execCalldatasize s = .next t from hx)
  | calldatacopy => exact copyOp_effect h (show execCalldatacopy s = .next t from hx)
  | codesize => exact pushOp_effect h (show execCodesize s = .next t from hx)
  | codecopy => exact copyOp_effect h (show execCodecopy s = .next t from hx)
  | gasprice => exact pushOp_effect h (show execGasprice s = .next t from hx)
  | extcodesize => exact unaryOp_effect h (show execExtcodesize s = .next t from hx)
  | extcodecopy => exact execExtcodecopy_effect h hx
  | returndatasize => exact pushOp_effect h (show execReturndatasize s = .next t from hx)
  | returndatacopy => exact copyOp_effect h (show execReturndatacopy s = .next t from hx)
  | extcodehash => exact unaryOp_effect h (show execExtcodehash s = .next t from hx)
  | coinbase => exact pushOp_effect h (show execCoinbase s = .next t from hx)
  | timestamp => exact pushOp_effect h (show execTimestamp s = .next t from hx)
  | number => exact pushOp_effect h (show execNumber s = .next t from hx)
  | difficulty => exact pushOp_effect h (show execDifficulty s = .next t from hx)
  | gaslimit => exact pushOp_effect h (show execGaslimit s = .next t from hx)
  | chainid => exact pushOp_effect h (show execChainid s = .next t from hx)
  | selfbalance => exact pushOp_effect h (show execSelfbalance s = .next t from hx)
  | basefee => exact pushOp_effect h (show execBasefee s = .next t from hx)
  | pop => exact popOp_effect h (show execPop s = .next t from hx)
  | mload => exact execMload_effect h hx
  | mstore => exact execMstore_effect h hx
  | mstore8 => exact execMstore8_effect h hx
  | sload => exact execSload_effect h hx
  | sstore => exact execSstore_effect h hx
  | jump => exact execJump_effect h hx
  | jumpi => exact execJumpi_effect h hx
  | pc => exact pushOp_effect h (show execPc s = .next t from hx)
  | msize => exact pushOp_effect h (show execMsize s = .next t from hx)
  | jumpdest => exact plainOp_effect h (show execJumpdest s = .next t from hx)
  | push0 => exact pushOp_effect h (show execPush0 s = .next t from hx)
  | push1 imm => exact pushOp_effect h (show execPush1 imm s = .next t from hx)
  | push2 imm => exact pushOp_effect h (show execPush2 imm s = .next t from hx)
  | push3 imm => exact pushOp_effect h (show execPush3 imm s = .next t from hx)
  | push4 imm => exact pushOp_effect h (show execPush4 imm s = .next t from hx)
  | push5 imm => exact pushOp_effect h (show execPush5 imm s = .next t from hx)
  | push6 imm => exact pushOp_effect h (show execPush6 imm s = .next t from hx)
  | push7 imm => exact pushOp_effect h (show execPush7 imm s = .next t from hx)
  | push8 imm => exact pushOp_effect h (show execPush8 imm s = .next t from hx)
  | push9 imm => exact pushOp_effect h (show execPush9 imm s = .next t from hx)
  | push10 imm => exact pushOp_effect h (show execPush10 imm s = .next t from hx)
  | push11 imm => exact pushOp_effect h (show execPush11 imm s = .next t from hx)
  | push12 imm => exact pushOp_effect h (show execPush12 imm s = .next t from hx)
  | push13 imm => exact pushOp_effect h (show execPush13 imm s = .next t from hx)
  | push14 imm => exact pushOp_effect h (show execPush14 imm s = .next t from hx)
  | push15 imm => exact pushOp_effect h (show execPush15 imm s = .next t from hx)
  | push16 imm => exact pushOp_effect h (show execPush16 imm s = .next t from hx)
  | push17 imm => exact pushOp_effect h (show execPush17 imm s = .next t from hx)
  | push18 imm => exact pushOp_effect h (show execPush18 imm s = .next t from hx)
  | push19 imm => exact pushOp_effect h (show execPush19 imm s = .next t from hx)
  | push20 imm => exact pushOp_effect h (show execPush20 imm s = .next t from hx)
  | push21 imm => exact pushOp_effect h (show execPush21 imm s = .next t from hx)
  | push22 imm => exact pushOp_effect h (show execPush22 imm s = .next t from hx)
  | push23 imm => exact pushOp_effect h (show execPush23 imm s = .next t from hx)
  | push24 imm => exact pushOp_effect h (show execPush24 imm s = .next t from hx)
  | push25 imm => exact pushOp_effect h (show execPush25 imm s = .next t from hx)
  | push26 imm => exact pushOp_effect h (show execPush26 imm s = .next t from hx)
  | push27 imm => exact pushOp_effect h (show execPush27 imm s = .next t from hx)
  | push28 imm => exact pushOp_effect h (show execPush28 imm s = .next t from hx)
  | push29 imm => exact pushOp_effect h (show execPush29 imm s = .next t from hx)
  | push30 imm => exact pushOp_effect h (show execPush30 imm s = .next t from hx)
  | push31 imm => exact pushOp_effect h (show execPush31 imm s = .next t from hx)
  | push32 imm => exact pushOp_effect h (show execPush32 imm s = .next t from hx)
  | log0 => exact logOp_effect (by decide) h (show execLog0 s = .next t from hx)
  | log1 => exact logOp_effect (by decide) h (show execLog1 s = .next t from hx)
  | log2 => exact logOp_effect (by decide) h (show execLog2 s = .next t from hx)
  | log3 => exact logOp_effect (by decide) h (show execLog3 s = .next t from hx)
  | log4 => exact logOp_effect (by decide) h (show execLog4 s = .next t from hx)
  | create => exact execCreate_effect h hx
  | call => exact execCall_effect h hx
  | ret => exact haltWithOutput_effect (fun _ => .inl rfl) h (show execRet s = .next t from hx)
  | delegatecall => exact execDelegatecall_effect h hx
  | staticcall => exact execStaticcall_effect h hx
  | revert => exact haltWithOutput_effect (fun _ => .inr rfl) h (show execRevert s = .next t from hx)
  | selfdestruct => exact execSelfdestruct_effect h hx

end Sys2Proof.Machine
end

