-- ==== Sys2Proof/Laws/PerInstr.lean ====
section
/-!
SUPPORT. One lemma per constructor of `Instr`: the encoder's opcode byte and immediate are the decoder's row for that
instruction (spec/30_encoding.md R104).
-/

namespace Sys2Proof.Laws.OpcodeRow

/-- The opcode map reads the encoder's opcode byte, with the encoder's immediate, as the instruction. -/
def Statement : Instr → Prop := fun i => decodeOp i.opcode i.parts.2 = some i

/-- Every row of the map is the one its byte finds. -/
theorem row_found : ∀ row ∈ opRows, decodeOp row.1 0 = some row.2 := by decide +kernel

/-- The row at place `n` of the map. -/
theorem of_row (n : Nat) {op : Byte} {i : Instr} (h : opRows[n]? = some (op, i)) : decodeOp op 0 = some i :=
  row_found _ (List.mem_of_getElem? h)

/-- A byte with immediate bytes is read by `pushOf`. -/
theorem of_push {op : Byte} {n : Nat} {w : Word} {i : Instr} (h : immWidth op = n + 1) (hp : pushOf (n + 1) w = some i) :
    decodeOp op w = some i := by
  rw [decodeOp, h, if_neg (Nat.succ_ne_zero n), hp]

theorem stop : Statement .stop := of_row 0 rfl
theorem add : Statement .add := of_row 1 rfl
theorem mul : Statement .mul := of_row 2 rfl
theorem sub : Statement .sub := of_row 3 rfl
theorem div : Statement .div := of_row 4 rfl
theorem sdiv : Statement .sdiv := of_row 5 rfl
theorem mod : Statement .mod := of_row 6 rfl
theorem smod : Statement .smod := of_row 7 rfl
theorem addmod : Statement .addmod := of_row 8 rfl
theorem mulmod : Statement .mulmod := of_row 9 rfl
theorem exp : Statement .exp := of_row 10 rfl
theorem signextend : Statement .signextend := of_row 11 rfl
theorem lt : Statement .lt := of_row 12 rfl
theorem gt : Statement .gt := of_row 13 rfl
theorem slt : Statement .slt := of_row 14 rfl
theorem sgt : Statement .sgt := of_row 15 rfl
theorem eq : Statement .eq := of_row 16 rfl
theorem iszero : Statement .iszero := of_row 17 rfl
theorem and : Statement .and := of_row 18 rfl
theorem or : Statement .or := of_row 19 rfl
theorem xor : Statement .xor := of_row 20 rfl
theorem not : Statement .not := of_row 21 rfl
theorem byte : Statement .byte := of_row 22 rfl
theorem shl : Statement .shl := of_row 23 rfl
theorem shr : Statement .shr := of_row 24 rfl
theorem sar : Statement .sar := of_row 25 rfl
theorem sha3 : Statement .sha3 := of_row 26 rfl
theorem address : Statement .address := of_row 27 rfl
theorem balance : Statement .balance := of_row 28 rfl
theorem origin : Statement .origin := of_row 29 rfl
theorem caller : Statement .caller := of_row 30 rfl
theorem callvalue : Statement .callvalue := of_row 31 rfl
theorem calldataload : Statement .calldataload := of_row 32 rfl
theorem calldatasize : Statement .calldatasize := of_row 33 rfl
theorem calldatacopy : Statement .calldatacopy := of_row 34 rfl
theorem codesize : Statement .codesize := of_row 35 rfl
theorem codecopy : Statement .codecopy := of_row 36 rfl
theorem gasprice : Statement .gasprice := of_row 37 rfl
theorem extcodesize : Statement .extcodesize := of_row 38 rfl
theorem extcodecopy : Statement .extcodecopy := of_row 39 rfl
theorem returndatasize : Statement .returndatasize := of_row 40 rfl
theorem returndatacopy : Statement .returndatacopy := of_row 41 rfl
theorem extcodehash : Statement .extcodehash := of_row 42 rfl
theorem coinbase : Statement .coinbase := of_row 43 rfl
theorem timestamp : Statement .timestamp := of_row 44 rfl
theorem number : Statement .number := of_row 45 rfl
theorem difficulty : Statement .difficulty := of_row 46 rfl
theorem gaslimit : Statement .gaslimit := of_row 47 rfl
theorem chainid : Statement .chainid := of_row 48 rfl
theorem selfbalance : Statement .selfbalance := of_row 49 rfl
theorem basefee : Statement .basefee := of_row 50 rfl
theorem pop : Statement .pop := of_row 51 rfl
theorem mload : Statement .mload := of_row 52 rfl
theorem mstore : Statement .mstore := of_row 53 rfl
theorem mstore8 : Statement .mstore8 := of_row 54 rfl
theorem sload : Statement .sload := of_row 55 rfl
theorem sstore : Statement .sstore := of_row 56 rfl
theorem jump : Statement .jump := of_row 57 rfl
theorem jumpi : Statement .jumpi := of_row 58 rfl
theorem pc : Statement .pc := of_row 59 rfl
theorem msize : Statement .msize := of_row 60 rfl
theorem jumpdest : Statement .jumpdest := of_row 61 rfl
theorem push0 : Statement .push0 := of_row 62 rfl
theorem push1 (imm : Word) : Statement (.push1 imm) := of_push (op := 0x60) (n := 0) (by decide) rfl
theorem push2 (imm : Word) : Statement (.push2 imm) := of_push (op := 0x61) (n := 1) (by decide) rfl
theorem push3 (imm : Word) : Statement (.push3 imm) := of_push (op := 0x62) (n := 2) (by decide) rfl
theorem push4 (imm : Word) : Statement (.push4 imm) := of_push (op := 0x63) (n := 3) (by decide) rfl
theorem push5 (imm : Word) : Statement (.push5 imm) := of_push (op := 0x64) (n := 4) (by decide) rfl
theorem push6 (imm : Word) : Statement (.push6 imm) := of_push (op := 0x65) (n := 5) (by decide) rfl
theorem push7 (imm : Word) : Statement (.push7 imm) := of_push (op := 0x66) (n := 6) (by decide) rfl
theorem push8 (imm : Word) : Statement (.push8 imm) := of_push (op := 0x67) (n := 7) (by decide) rfl
theorem push9 (imm : Word) : Statement (.push9 imm) := of_push (op := 0x68) (n := 8) (by decide) rfl
theorem push10 (imm : Word) : Statement (.push10 imm) := of_push (op := 0x69) (n := 9) (by decide) rfl
theorem push11 (imm : Word) : Statement (.push11 imm) := of_push (op := 0x6a) (n := 10) (by decide) rfl
theorem push12 (imm : Word) : Statement (.push12 imm) := of_push (op := 0x6b) (n := 11) (by decide) rfl
theorem push13 (imm : Word) : Statement (.push13 imm) := of_push (op := 0x6c) (n := 12) (by decide) rfl
theorem push14 (imm : Word) : Statement (.push14 imm) := of_push (op := 0x6d) (n := 13) (by decide) rfl
theorem push15 (imm : Word) : Statement (.push15 imm) := of_push (op := 0x6e) (n := 14) (by decide) rfl
theorem push16 (imm : Word) : Statement (.push16 imm) := of_push (op := 0x6f) (n := 15) (by decide) rfl
theorem push17 (imm : Word) : Statement (.push17 imm) := of_push (op := 0x70) (n := 16) (by decide) rfl
theorem push18 (imm : Word) : Statement (.push18 imm) := of_push (op := 0x71) (n := 17) (by decide) rfl
theorem push19 (imm : Word) : Statement (.push19 imm) := of_push (op := 0x72) (n := 18) (by decide) rfl
theorem push20 (imm : Word) : Statement (.push20 imm) := of_push (op := 0x73) (n := 19) (by decide) rfl
theorem push21 (imm : Word) : Statement (.push21 imm) := of_push (op := 0x74) (n := 20) (by decide) rfl
theorem push22 (imm : Word) : Statement (.push22 imm) := of_push (op := 0x75) (n := 21) (by decide) rfl
theorem push23 (imm : Word) : Statement (.push23 imm) := of_push (op := 0x76) (n := 22) (by decide) rfl
theorem push24 (imm : Word) : Statement (.push24 imm) := of_push (op := 0x77) (n := 23) (by decide) rfl
theorem push25 (imm : Word) : Statement (.push25 imm) := of_push (op := 0x78) (n := 24) (by decide) rfl
theorem push26 (imm : Word) : Statement (.push26 imm) := of_push (op := 0x79) (n := 25) (by decide) rfl
theorem push27 (imm : Word) : Statement (.push27 imm) := of_push (op := 0x7a) (n := 26) (by decide) rfl
theorem push28 (imm : Word) : Statement (.push28 imm) := of_push (op := 0x7b) (n := 27) (by decide) rfl
theorem push29 (imm : Word) : Statement (.push29 imm) := of_push (op := 0x7c) (n := 28) (by decide) rfl
theorem push30 (imm : Word) : Statement (.push30 imm) := of_push (op := 0x7d) (n := 29) (by decide) rfl
theorem push31 (imm : Word) : Statement (.push31 imm) := of_push (op := 0x7e) (n := 30) (by decide) rfl
theorem push32 (imm : Word) : Statement (.push32 imm) := of_push (op := 0x7f) (n := 31) (by decide) rfl
theorem dup1 : Statement .dup1 := of_row 63 rfl
theorem dup2 : Statement .dup2 := of_row 64 rfl
theorem dup3 : Statement .dup3 := of_row 65 rfl
theorem dup4 : Statement .dup4 := of_row 66 rfl
theorem dup5 : Statement .dup5 := of_row 67 rfl
theorem dup6 : Statement .dup6 := of_row 68 rfl
theorem dup7 : Statement .dup7 := of_row 69 rfl
theorem dup8 : Statement .dup8 := of_row 70 rfl
theorem dup9 : Statement .dup9 := of_row 71 rfl
theorem dup10 : Statement .dup10 := of_row 72 rfl
theorem dup11 : Statement .dup11 := of_row 73 rfl
theorem dup12 : Statement .dup12 := of_row 74 rfl
theorem dup13 : Statement .dup13 := of_row 75 rfl
theorem dup14 : Statement .dup14 := of_row 76 rfl
theorem dup15 : Statement .dup15 := of_row 77 rfl
theorem dup16 : Statement .dup16 := of_row 78 rfl
theorem swap1 : Statement .swap1 := of_row 79 rfl
theorem swap2 : Statement .swap2 := of_row 80 rfl
theorem swap3 : Statement .swap3 := of_row 81 rfl
theorem swap4 : Statement .swap4 := of_row 82 rfl
theorem swap5 : Statement .swap5 := of_row 83 rfl
theorem swap6 : Statement .swap6 := of_row 84 rfl
theorem swap7 : Statement .swap7 := of_row 85 rfl
theorem swap8 : Statement .swap8 := of_row 86 rfl
theorem swap9 : Statement .swap9 := of_row 87 rfl
theorem swap10 : Statement .swap10 := of_row 88 rfl
theorem swap11 : Statement .swap11 := of_row 89 rfl
theorem swap12 : Statement .swap12 := of_row 90 rfl
theorem swap13 : Statement .swap13 := of_row 91 rfl
theorem swap14 : Statement .swap14 := of_row 92 rfl
theorem swap15 : Statement .swap15 := of_row 93 rfl
theorem swap16 : Statement .swap16 := of_row 94 rfl
theorem log0 : Statement .log0 := of_row 95 rfl
theorem log1 : Statement .log1 := of_row 96 rfl
theorem log2 : Statement .log2 := of_row 97 rfl
theorem log3 : Statement .log3 := of_row 98 rfl
theorem log4 : Statement .log4 := of_row 99 rfl
theorem create : Statement .create := of_row 100 rfl
theorem call : Statement .call := of_row 101 rfl
theorem ret : Statement .ret := of_row 102 rfl
theorem delegatecall : Statement .delegatecall := of_row 103 rfl
theorem staticcall : Statement .staticcall := of_row 104 rfl
theorem revert : Statement .revert := of_row 105 rfl
theorem selfdestruct : Statement .selfdestruct := of_row 106 rfl

end Sys2Proof.Laws.OpcodeRow
end

