-- ==== Sys2Proof/Laws/Step.lean ====
section
/-!
SUPPORT. Everything one step of the machine can do, said once (spec/70_reset_and_hazards.md R387): the count of a fetch,
the return transition, and the cases of `step`.
-/

namespace Sys2Proof.Machine

variable {s s' t : State} {f k p : Frame} {fs below : List Frame} {o : HaltOutcome}

/-- R240 part 3: a counted fetch changes nothing but `steps`, and stays within the limit. -/
theorem countFetch_some (h : countFetch s = some s') :
    (s.params.stepLimit = none ∧ s' = s) ∨
      ∃ limit, s.params.stepLimit = some limit ∧ s.steps + 1 ≤ limit ∧ s' = { s with steps := s.steps + 1 } := by
  unfold countFetch at h
  split at h
  · exact .inl ⟨‹_›, by cases h; rfl⟩
  · split at h <;> cases h
    exact .inr ⟨_, ‹_›, by omega, rfl⟩

/-- A counted fetch keeps the frames. -/
theorem countFetch_frames (h : countFetch s = some s') : s'.frames = s.frames := by
  rcases countFetch_some h with ⟨_, rfl⟩ | ⟨_, _, _, rfl⟩ <;> rfl

/-- R316, R317: all the return of a call's child can do. -/
theorem callReturn_next {snap : Snapshot} {outOff outSize : Word}
    (h : callReturn s o snap outOff outSize p below = .next t) :
    fitsLength s.params outSize.toNat = true ∧
      fitsCapacity s.params (p.memory.grow s.params outOff.toNat outSize.toNat).size = true ∧
      t = { settle s o snap with
        frames := { p with
          memory := (p.memory.grow s.params outOff.toNat outSize.toNat).store outOff.toNat
            (padRead o.output 0 outSize.toNat)
          returndata := o.output
          stack := o.flag :: p.stack } :: below } := by
  obtain ⟨hl, hf, hx⟩ := withGrown_next h
  exact ⟨hl, hf, by cases hx; rfl⟩

/-- R308: a return transition is that of a call's child or of a CREATE's child. -/
theorem returnTransition_next (h : returnTransition s o k p below = .next t) :
    (∃ outOff outSize, (k.kind = .call outOff outSize ∨ k.kind = .delegateCall outOff outSize ∨
        k.kind = .staticCall outOff outSize) ∧ callReturn s o k.snapshot outOff outSize p below = .next t) ∨
      ∃ N v, k.kind = .create N v ∧ createReturn s o k.snapshot N v p below = .next t := by
  unfold returnTransition at h
  split at h
  · cases h
  · exact .inl ⟨_, _, .inl ‹_›, h⟩
  · exact .inl ⟨_, _, .inr (.inl ‹_›), h⟩
  · exact .inl ⟨_, _, .inr (.inr ‹_›), h⟩
  · exact .inr ⟨_, _, ‹_›, h⟩

/-- What a step that answers the next state `t` did. -/
inductive StepCase (s t : State) : Prop where
  /-- R385: the core is not running -/
  | stutter : s.runStatus ≠ .running → t = s → StepCase s t
  /-- R241 -/
  | endOfCode (f : Frame) (fs : List Frame) : s.runStatus = .running → s.frames = f :: fs → f.status = .running →
      decode (f.code.drop f.pc) = .endOfCode → t = s.setTop (f.halt (.ret [])) → StepCase s t
  /-- R345 -/
  | unknown (f : Frame) (fs : List Frame) (op : Byte) (s' : State) : s.runStatus = .running → s.frames = f :: fs →
      f.status = .running → decode (f.code.drop f.pc) = .unknownOpcode op → countFetch s = some s' →
      t = failed s' f .unknownOpcode → StepCase s t
  /-- R240; R393: the pc register holds the pc past the instruction -/
  | executed (f : Frame) (fs : List Frame) (i : Instr) (rest : Bytes) (s' : State) : s.runStatus = .running →
      s.frames = f :: fs → f.status = .running → decode (f.code.drop f.pc) = .instr i rest → countFetch s = some s' →
      fitsPc s'.params (f.pc + i.length) = true → exec i s' = .next t → StepCase s t
  /-- R308 -/
  | returned (k p : Frame) (fs : List Frame) (o : HaltOutcome) : s.runStatus = .running → s.frames = k :: p :: fs →
      k.status = .halted o → returnTransition s o k p fs = .next t → StepCase s t
  /-- R325 -/
  | ended (f : Frame) (o : HaltOutcome) : s.runStatus = .running → s.frames = [f] → f.status = .halted o →
      t = finish s o f → StepCase s t

/-- Every step that answers a next state is one of the cases. -/
theorem step_cases (h : step s = .next t) : StepCase s t := by
  unfold step nextPhase at h
  cases hr : s.runStatus with
  | idle => simp only [hr] at h; cases h; exact .stutter (by rw [hr]; simp) rfl
  | done => simp only [hr] at h; cases h; exact .stutter (by rw [hr]; simp) rfl
  | running =>
    simp only [hr, runPhase] at h
    cases hf : s.frames with
    | nil => simp only [hf] at h; cases h
    | cons f fs =>
      simp only [hf] at h
      cases hst : f.status with
      | running =>
        simp only [hst, fetchPhase] at h
        cases hd : decode (f.code.drop f.pc) with
        | instr i rest =>
          simp only [hd] at h
          cases hc : countFetch s with
          | none => rw [hc] at h; cases h
          | some s' =>
            simp only [hc] at h
            by_cases hp : fitsPc s.params (f.pc + i.length) = true
            · simp only [hp, if_true] at h
              have hq : s'.params = s.params := by rcases countFetch_some hc with ⟨_, rfl⟩ | ⟨_, _, _, rfl⟩ <;> rfl
              exact .executed f fs i rest s' hr hf hst hd hc (hq ▸ hp) h
            · simp only [hp] at h; cases h
        | unknownOpcode op =>
          simp only [hd] at h
          cases hc : countFetch s with
          | none => rw [hc] at h; cases h
          | some s' => rw [hc] at h; cases h; exact .unknown f fs op s' hr hf hst hd hc rfl
        | endOfCode => simp only [hd] at h; cases h; exact .endOfCode f fs hr hf hst hd rfl
      | halted o =>
        simp only [hst] at h
        cases fs with
        | nil => cases h; exact .ended f o hr hf hst rfl
        | cons p rest => exact .returned f p rest o hr hf hst h

end Sys2Proof.Machine
end

