-- ==== Sys2Proof/Tests/Slice0.lean ====
section
/-!
SUPPORT. Tests of the model: ill-formed terms, words written out from the encodings, one step of each instruction, and
a witness for the hypotheses of each statement. Expected results are the vectors of spec/95_test_vectors.md (their table
is named) or worked by hand from the rule named.
-/

namespace Sys2Proof.Tests

open Sys2Proof.Machine Sys2Proof.Rules

set_option Elab.async false

/-! ## Ill-formed terms (R110) -/

/-- The first value with one byte too many, and the greatest that fits. PUSH32 has no ill-formed immediate. -/
theorem test_wf_push1_to_push8 :
    (Instr.push1 0x100).wf = false ∧ (Instr.push1 0xff).wf = true ∧ (Instr.push2 0x10000).wf = false ∧
    (Instr.push3 0x1000000).wf = false ∧ (Instr.push4 0x100000000).wf = false ∧
    (Instr.push5 0x10000000000).wf = false ∧ (Instr.push6 0x1000000000000).wf = false ∧
    (Instr.push7 0x100000000000000).wf = false ∧ (Instr.push8 0x10000000000000000).wf = false := by decide +kernel

theorem test_wf_push9_to_push20 :
    (Instr.push9 (BitVec.ofNat 256 (2 ^ 72))).wf = false ∧ (Instr.push10 (BitVec.ofNat 256 (2 ^ 80))).wf = false ∧
    (Instr.push11 (BitVec.ofNat 256 (2 ^ 88))).wf = false ∧ (Instr.push12 (BitVec.ofNat 256 (2 ^ 96))).wf = false ∧
    (Instr.push13 (BitVec.ofNat 256 (2 ^ 104))).wf = false ∧ (Instr.push14 (BitVec.ofNat 256 (2 ^ 112))).wf = false ∧
    (Instr.push15 (BitVec.ofNat 256 (2 ^ 120))).wf = false ∧ (Instr.push16 (BitVec.ofNat 256 (2 ^ 128))).wf = false ∧
    (Instr.push17 (BitVec.ofNat 256 (2 ^ 136))).wf = false ∧ (Instr.push18 (BitVec.ofNat 256 (2 ^ 144))).wf = false ∧
    (Instr.push19 (BitVec.ofNat 256 (2 ^ 152))).wf = false ∧ (Instr.push20 (BitVec.ofNat 256 (2 ^ 160))).wf = false := by
  decide +kernel

theorem test_wf_push21_to_push32 :
    (Instr.push21 (BitVec.ofNat 256 (2 ^ 168))).wf = false ∧ (Instr.push22 (BitVec.ofNat 256 (2 ^ 176))).wf = false ∧
    (Instr.push23 (BitVec.ofNat 256 (2 ^ 184))).wf = false ∧ (Instr.push24 (BitVec.ofNat 256 (2 ^ 192))).wf = false ∧
    (Instr.push25 (BitVec.ofNat 256 (2 ^ 200))).wf = false ∧ (Instr.push26 (BitVec.ofNat 256 (2 ^ 208))).wf = false ∧
    (Instr.push27 (BitVec.ofNat 256 (2 ^ 216))).wf = false ∧ (Instr.push28 (BitVec.ofNat 256 (2 ^ 224))).wf = false ∧
    (Instr.push29 (BitVec.ofNat 256 (2 ^ 232))).wf = false ∧ (Instr.push30 (BitVec.ofNat 256 (2 ^ 240))).wf = false ∧
    (Instr.push31 (BitVec.ofNat 256 (2 ^ 248))).wf = false ∧ (Instr.push32 maxWord).wf = true := by decide +kernel

/-! ## Words written out from spec/30_encoding.md R104 -/

theorem test_decode_arithmetic :
    decode [0x00] = .instr .stop [] ∧ decode [0x01] = .instr .add [] ∧ decode [0x02] = .instr .mul [] ∧
    decode [0x03] = .instr .sub [] ∧ decode [0x04] = .instr .div [] ∧ decode [0x05] = .instr .sdiv [] ∧
    decode [0x06] = .instr .mod [] ∧ decode [0x07] = .instr .smod [] ∧ decode [0x08] = .instr .addmod [] ∧
    decode [0x09] = .instr .mulmod [] ∧ decode [0x0a] = .instr .exp [] ∧ decode [0x0b] = .instr .signextend [] := by
  decide +kernel

theorem test_decode_compare_bitwise :
    decode [0x10] = .instr .lt [] ∧ decode [0x11] = .instr .gt [] ∧ decode [0x12] = .instr .slt [] ∧
    decode [0x13] = .instr .sgt [] ∧ decode [0x14] = .instr .eq [] ∧ decode [0x15] = .instr .iszero [] ∧
    decode [0x16] = .instr .and [] ∧ decode [0x17] = .instr .or [] ∧ decode [0x18] = .instr .xor [] ∧
    decode [0x19] = .instr .not [] ∧ decode [0x1a] = .instr .byte [] ∧ decode [0x1b] = .instr .shl [] ∧
    decode [0x1c] = .instr .shr [] ∧ decode [0x1d] = .instr .sar [] := by decide +kernel

theorem test_decode_environment :
    decode [0x20] = .instr .sha3 [] ∧ decode [0x30] = .instr .address [] ∧ decode [0x31] = .instr .balance [] ∧
    decode [0x32] = .instr .origin [] ∧ decode [0x33] = .instr .caller [] ∧ decode [0x34] = .instr .callvalue [] ∧
    decode [0x35] = .instr .calldataload [] ∧ decode [0x36] = .instr .calldatasize [] ∧
    decode [0x37] = .instr .calldatacopy [] ∧ decode [0x38] = .instr .codesize [] ∧
    decode [0x39] = .instr .codecopy [] ∧ decode [0x3a] = .instr .gasprice [] ∧
    decode [0x3b] = .instr .extcodesize [] ∧ decode [0x3c] = .instr .extcodecopy [] ∧
    decode [0x3d] = .instr .returndatasize [] ∧ decode [0x3e] = .instr .returndatacopy [] ∧
    decode [0x3f] = .instr .extcodehash [] ∧ decode [0x41] = .instr .coinbase [] ∧
    decode [0x42] = .instr .timestamp [] ∧ decode [0x43] = .instr .number [] ∧ decode [0x44] = .instr .difficulty [] ∧
    decode [0x45] = .instr .gaslimit [] ∧ decode [0x46] = .instr .chainid [] ∧
    decode [0x47] = .instr .selfbalance [] ∧ decode [0x48] = .instr .basefee [] := by decide +kernel

theorem test_decode_memory_control :
    decode [0x50] = .instr .pop [] ∧ decode [0x51] = .instr .mload [] ∧ decode [0x52] = .instr .mstore [] ∧
    decode [0x53] = .instr .mstore8 [] ∧ decode [0x54] = .instr .sload [] ∧ decode [0x55] = .instr .sstore [] ∧
    decode [0x56] = .instr .jump [] ∧ decode [0x57] = .instr .jumpi [] ∧ decode [0x58] = .instr .pc [] ∧
    decode [0x59] = .instr .msize [] ∧ decode [0x5b] = .instr .jumpdest [] ∧ decode [0x5f] = .instr .push0 [] := by
  decide +kernel

/-- Bytes 0x01, 0x02, ..., 0x20, as many as an immediate has. -/
def countingBytes (n : Nat) : Bytes := (List.range n).map fun i => BitVec.ofNat 8 (i + 1)

theorem test_decode_push1_to_push10 :
    decode (0x60 :: countingBytes 1) = .instr (.push1 0x01) [] ∧
    decode (0x61 :: countingBytes 2) = .instr (.push2 0x0102) [] ∧
    decode (0x62 :: countingBytes 3) = .instr (.push3 0x010203) [] ∧
    decode (0x63 :: countingBytes 4) = .instr (.push4 0x01020304) [] ∧
    decode (0x64 :: countingBytes 5) = .instr (.push5 0x0102030405) [] ∧
    decode (0x65 :: countingBytes 6) = .instr (.push6 0x010203040506) [] ∧
    decode (0x66 :: countingBytes 7) = .instr (.push7 0x01020304050607) [] ∧
    decode (0x67 :: countingBytes 8) = .instr (.push8 0x0102030405060708) [] ∧
    decode (0x68 :: countingBytes 9) = .instr (.push9 0x010203040506070809) [] ∧
    decode (0x69 :: countingBytes 10) = .instr (.push10 0x0102030405060708090a) [] := by decide +kernel

theorem test_decode_push11_to_push20 :
    decode (0x6a :: countingBytes 11) = .instr (.push11 0x0102030405060708090a0b) [] ∧
    decode (0x6b :: countingBytes 12) = .instr (.push12 0x0102030405060708090a0b0c) [] ∧
    decode (0x6c :: countingBytes 13) = .instr (.push13 0x0102030405060708090a0b0c0d) [] ∧
    decode (0x6d :: countingBytes 14) = .instr (.push14 0x0102030405060708090a0b0c0d0e) [] ∧
    decode (0x6e :: countingBytes 15) = .instr (.push15 0x0102030405060708090a0b0c0d0e0f) [] ∧
    decode (0x6f :: countingBytes 16) = .instr (.push16 0x0102030405060708090a0b0c0d0e0f10) [] ∧
    decode (0x70 :: countingBytes 17) = .instr (.push17 0x0102030405060708090a0b0c0d0e0f1011) [] ∧
    decode (0x71 :: countingBytes 18) = .instr (.push18 0x0102030405060708090a0b0c0d0e0f101112) [] ∧
    decode (0x72 :: countingBytes 19) = .instr (.push19 0x0102030405060708090a0b0c0d0e0f10111213) [] ∧
    decode (0x73 :: countingBytes 20) = .instr (.push20 0x0102030405060708090a0b0c0d0e0f1011121314) [] := by
  decide +kernel

theorem test_decode_push21_to_push32 :
    decode (0x74 :: countingBytes 21) = .instr (.push21 0x0102030405060708090a0b0c0d0e0f101112131415) [] ∧
    decode (0x75 :: countingBytes 22) = .instr (.push22 0x0102030405060708090a0b0c0d0e0f10111213141516) [] ∧
    decode (0x76 :: countingBytes 23) = .instr (.push23 0x0102030405060708090a0b0c0d0e0f1011121314151617) [] ∧
    decode (0x77 :: countingBytes 24) = .instr (.push24 0x0102030405060708090a0b0c0d0e0f101112131415161718) [] ∧
    decode (0x78 :: countingBytes 25) = .instr (.push25 0x0102030405060708090a0b0c0d0e0f10111213141516171819) [] ∧
    decode (0x79 :: countingBytes 26) = .instr (.push26 0x0102030405060708090a0b0c0d0e0f101112131415161718191a) [] ∧
    decode (0x7a :: countingBytes 27) = .instr (.push27 0x0102030405060708090a0b0c0d0e0f101112131415161718191a1b) [] ∧
    decode (0x7b :: countingBytes 28) =
      .instr (.push28 0x0102030405060708090a0b0c0d0e0f101112131415161718191a1b1c) [] ∧
    decode (0x7c :: countingBytes 29) =
      .instr (.push29 0x0102030405060708090a0b0c0d0e0f101112131415161718191a1b1c1d) [] ∧
    decode (0x7d :: countingBytes 30) =
      .instr (.push30 0x0102030405060708090a0b0c0d0e0f101112131415161718191a1b1c1d1e) [] ∧
    decode (0x7e :: countingBytes 31) =
      .instr (.push31 0x0102030405060708090a0b0c0d0e0f101112131415161718191a1b1c1d1e1f) [] ∧
    decode (0x7f :: countingBytes 32) =
      .instr (.push32 0x0102030405060708090a0b0c0d0e0f101112131415161718191a1b1c1d1e1f20) [] := by decide +kernel

theorem test_decode_dup :
    decode [0x80] = .instr .dup1 [] ∧ decode [0x81] = .instr .dup2 [] ∧ decode [0x82] = .instr .dup3 [] ∧
    decode [0x83] = .instr .dup4 [] ∧ decode [0x84] = .instr .dup5 [] ∧ decode [0x85] = .instr .dup6 [] ∧
    decode [0x86] = .instr .dup7 [] ∧ decode [0x87] = .instr .dup8 [] ∧ decode [0x88] = .instr .dup9 [] ∧
    decode [0x89] = .instr .dup10 [] ∧ decode [0x8a] = .instr .dup11 [] ∧ decode [0x8b] = .instr .dup12 [] ∧
    decode [0x8c] = .instr .dup13 [] ∧ decode [0x8d] = .instr .dup14 [] ∧ decode [0x8e] = .instr .dup15 [] ∧
    decode [0x8f] = .instr .dup16 [] := by decide +kernel

theorem test_decode_swap :
    decode [0x90] = .instr .swap1 [] ∧ decode [0x91] = .instr .swap2 [] ∧ decode [0x92] = .instr .swap3 [] ∧
    decode [0x93] = .instr .swap4 [] ∧ decode [0x94] = .instr .swap5 [] ∧ decode [0x95] = .instr .swap6 [] ∧
    decode [0x96] = .instr .swap7 [] ∧ decode [0x97] = .instr .swap8 [] ∧ decode [0x98] = .instr .swap9 [] ∧
    decode [0x99] = .instr .swap10 [] ∧ decode [0x9a] = .instr .swap11 [] ∧ decode [0x9b] = .instr .swap12 [] ∧
    decode [0x9c] = .instr .swap13 [] ∧ decode [0x9d] = .instr .swap14 [] ∧ decode [0x9e] = .instr .swap15 [] ∧
    decode [0x9f] = .instr .swap16 [] := by decide +kernel

theorem test_decode_log_system :
    decode [0xa0] = .instr .log0 [] ∧ decode [0xa1] = .instr .log1 [] ∧ decode [0xa2] = .instr .log2 [] ∧
    decode [0xa3] = .instr .log3 [] ∧ decode [0xa4] = .instr .log4 [] ∧ decode [0xf0] = .instr .create [] ∧
    decode [0xf1] = .instr .call [] ∧ decode [0xf3] = .instr .ret [] ∧ decode [0xf4] = .instr .delegatecall [] ∧
    decode [0xfa] = .instr .staticcall [] ∧ decode [0xfd] = .instr .revert [] ∧
    decode [0xff] = .instr .selfdestruct [] := by decide +kernel

/-- R101: PUSH2 0x0102 is the bytes 61 01 02; R110: an immediate is written most significant byte first. -/
theorem test_encode : encode (.push2 0x0102) = [0x61, 0x01, 0x02] ∧ encode .add = [0x01] ∧
    encode (.push4 0xff) = [0x63, 0x00, 0x00, 0x00, 0xff] := by decide +kernel

/-! ## One step of each instruction -/

/-- A top-level frame of a run with no account of its own. -/
def frame (code : Bytes) (stack : List Word) : Frame := { topFrame code TxContext.absent [] with stack := stack }

/-- A running machine with the one frame `f`. -/
def running (f : Frame) : State := { State.reset with runStatus := .running, frames := [f] }

/-- The running frame after a step. -/
def frameOf (o : Out) : Option Frame :=
  match o with
  | .next t => t.frames.head?
  | .fault _ => none
  | .refused _ => none

/-- The state after a step. -/
def stateOf (o : Out) : Option State :=
  match o with
  | .next t => some t
  | .fault _ => none
  | .refused _ => none

/-- Why a step refuses the run. -/
def refusalOf (o : Out) : Option Refusal :=
  match o with
  | .next _ => none
  | .fault _ => none
  | .refused r => some r

/-- The stack after one step of `code` on `stack`. -/
def stackAfter (code : Bytes) (stack : List Word) : Option (List Word) :=
  (frameOf (step (running (frame code stack)))).map Frame.stack

/-- How the frame ended in a step. -/
def statusOf (o : Out) : Option FrameStatus := (frameOf o).map Frame.status

/-- Tables 1.3 and 2.1. -/
theorem test_add : stackAfter [0x01] [maxWord, 1, 9] = some [0, 9] ∧ stackAfter [0x01] [5, 7] = some [12] := by
  decide +kernel

theorem test_add_underflow :
    statusOf (step (running (frame [0x01] [1]))) = some (.halted (.fail .stackUnderflow)) := by decide +kernel

theorem test_mul : stackAfter [0x02] [minWord, 2] = some [0] ∧ stackAfter [0x02] [maxWord, maxWord] = some [1] := by
  decide +kernel

theorem test_sub : stackAfter [0x03] [0, 1] = some [maxWord] ∧ stackAfter [0x03] [10, 5] = some [5] := by
  decide +kernel

theorem test_div : stackAfter [0x04] [10, 3] = some [3] ∧ stackAfter [0x04] [10, 0] = some [0] := by decide +kernel

theorem test_sdiv : stackAfter [0x05] [-8, 3] = some [-2] ∧ stackAfter [0x05] [minWord, maxWord] = some [minWord] ∧
    stackAfter [0x05] [8, -3] = some [-2] := by decide +kernel

theorem test_mod : stackAfter [0x06] [10, 3] = some [1] ∧ stackAfter [0x06] [10, 0] = some [0] := by decide +kernel

theorem test_smod : stackAfter [0x07] [-8, 3] = some [-2] ∧ stackAfter [0x07] [8, -3] = some [2] ∧
    stackAfter [0x07] [5, 0] = some [0] := by decide +kernel

theorem test_addmod : stackAfter [0x08] [maxWord, maxWord, 12] = some [6] ∧ stackAfter [0x08] [3, 4, 0] = some [0] := by
  decide +kernel

theorem test_mulmod : stackAfter [0x09] [maxWord, maxWord, 12] = some [9] ∧ stackAfter [0x09] [7, 7, 0] = some [0] := by
  decide +kernel

theorem test_exp : stackAfter [0x0a] [10, 2] = some [100] ∧ stackAfter [0x0a] [0, 0] = some [1] := by decide +kernel

theorem test_exp_wraps : stackAfter [0x0a] [3, 200] =
    some [0xc21a937a76f3432ffd73d97e447606b683ecf6f6e4a7ae225bfaff1eaaf8b0a1] := by decide +kernel

theorem test_signextend : stackAfter [0x0b] [0, 0x12f4] = some [-12] ∧ stackAfter [0x0b] [31, 0x80] = some [0x80] ∧
    stackAfter [0x0b] [minWord, 0xff] = some [0xff] := by decide +kernel

/-- Table 2.2. -/
theorem test_lt : stackAfter [0x10] [1, 2] = some [1] ∧ stackAfter [0x10] [maxWord, 0] = some [0] := by decide +kernel

theorem test_gt : stackAfter [0x11] [maxWord, 0] = some [1] ∧ stackAfter [0x11] [1, 1] = some [0] := by decide +kernel

theorem test_slt : stackAfter [0x12] [maxWord, 0] = some [1] ∧ stackAfter [0x12] [minWord, minWord - 1] = some [1] := by
  decide +kernel

theorem test_sgt : stackAfter [0x13] [0, maxWord] = some [1] ∧ stackAfter [0x13] [minWord, 0] = some [0] := by
  decide +kernel

theorem test_eq : stackAfter [0x14] [5, 5] = some [1] ∧ stackAfter [0x14] [5, 6] = some [0] := by decide +kernel

theorem test_iszero : stackAfter [0x15] [0] = some [1] ∧ stackAfter [0x15] [5] = some [0] := by decide +kernel

theorem test_and_or_xor : stackAfter [0x16] [0xff00, 0x0ff0] = some [0x0f00] ∧
    stackAfter [0x17] [0xff00, 0x0ff0] = some [0xfff0] ∧ stackAfter [0x18] [0xff00, 0x0ff0] = some [0xf0f0] := by
  decide +kernel

theorem test_not : stackAfter [0x19] [0] = some [maxWord] ∧ stackAfter [0x19] [0xff] = some [maxWord - 0xff] := by
  decide +kernel

theorem test_byte : stackAfter [0x1a] [31, 0x1234] = some [0x34] ∧ stackAfter [0x1a] [0, minWord + 0x55] = some [0x80] ∧
    stackAfter [0x1a] [maxWord, maxWord] = some [0] := by decide +kernel

theorem test_shl : stackAfter [0x1b] [4, 0xff] = some [0xff0] ∧ stackAfter [0x1b] [256, 1] = some [0] ∧
    stackAfter [0x1b] [255, 1] = some [minWord] := by decide +kernel

theorem test_shr : stackAfter [0x1c] [255, minWord] = some [1] ∧ stackAfter [0x1c] [256, maxWord] = some [0] := by
  decide +kernel

theorem test_sar : stackAfter [0x1d] [4, -256] = some [-16] ∧ stackAfter [0x1d] [256, minWord] = some [maxWord] ∧
    stackAfter [0x1d] [256, minWord - 1] = some [0] ∧ stackAfter [0x1d] [1, maxWord] = some [maxWord] := by
  decide +kernel

/-- Table 2.3. -/
theorem test_pop : stackAfter [0x50] [1, 2] = some [2] ∧
    statusOf (step (running (frame [0x50] []))) = some (.halted (.fail .stackUnderflow)) := by decide +kernel

theorem test_push0_and_push1 : stackAfter [0x5f] [7] = some [0, 7] ∧ stackAfter [0x60] [] = some [0] := by
  decide +kernel

/-- PUSH2 with one immediate byte missing: the missing byte reads as 0 on the right, pc goes past the end. -/
theorem test_push2_truncated : stackAfter [0x61, 0x12] [] = some [0x1200] ∧
    (frameOf (step (running (frame [0x61, 0x12] [])))).map Frame.pc = some 3 := by decide +kernel

theorem test_push32 : stackAfter (0x7f :: countingBytes 32) [] =
    some [0x0102030405060708090a0b0c0d0e0f101112131415161718191a1b1c1d1e1f20] := by decide +kernel

theorem test_dup : stackAfter [0x80] [3, 2, 1] = some [3, 3, 2, 1] ∧ stackAfter [0x82] [3, 2, 1] = some [1, 3, 2, 1] := by
  decide +kernel

theorem test_dup16 : stackAfter [0x8f] [16, 15, 14, 13, 12, 11, 10, 9, 8, 7, 6, 5, 4, 3, 2, 1] =
      some [1, 16, 15, 14, 13, 12, 11, 10, 9, 8, 7, 6, 5, 4, 3, 2, 1] ∧
    statusOf (step (running (frame [0x8f] [15, 14, 13, 12, 11, 10, 9, 8, 7, 6, 5, 4, 3, 2, 1]))) =
      some (.halted (.fail .stackUnderflow)) := by decide +kernel

theorem test_swap : stackAfter [0x90] [2, 1] = some [1, 2] ∧ stackAfter [0x91] [3, 2, 1] = some [1, 2, 3] := by
  decide +kernel

theorem test_swap16 : stackAfter [0x9f] [17, 16, 15, 14, 13, 12, 11, 10, 9, 8, 7, 6, 5, 4, 3, 2, 1] =
    some [1, 16, 15, 14, 13, 12, 11, 10, 9, 8, 7, 6, 5, 4, 3, 2, 17] := by decide +kernel

/-- R160, R343: the stack limit. -/
theorem test_push_overflow :
    statusOf (step (running (frame [0x5f] (List.replicate 1024 0)))) = some (.halted (.fail .stackOverflow)) ∧
    (stackAfter [0x5f] (List.replicate 1023 0)).map List.length = some 1024 := by decide +kernel

/-! Table 2.4. -/

/-- The size of the memory and the bytes of it that are not 0, after a step. -/
def memoryAfter (code : Bytes) (stack : List Word) : Option Memory :=
  (frameOf (step (running (frame code stack)))).map Frame.memory

theorem test_mstore : memoryAfter [0x52] [0, 0x2a] = some { cells := [(31, 0x2a)], size := 32 } ∧
    memoryAfter [0x52] [32, 1] = some { cells := [(63, 1)], size := 64 } := by decide +kernel

theorem test_mstore8 : memoryAfter [0x53] [31, 0x1234] = some { cells := [(31, 0x34)], size := 32 } := by decide +kernel

/-- A memory with the bytes 1 to 32 at their own offsets. -/
def counted : Memory := Memory.store { cells := [], size := 64 } 1 (countingBytes 32)

/-- R81, R82: MLOAD at the offset 1 of that memory. -/
theorem test_mload :
    (frameOf (step (running { frame [0x51] [1] with memory := counted }))).map Frame.stack =
      some [0x0102030405060708090a0b0c0d0e0f101112131415161718191a1b1c1d1e1f20] ∧
    memoryAfter [0x51] [1] = some { cells := [], size := 64 } := by decide +kernel

theorem test_msize : stackAfter [0x59] [] = some [0] ∧
    (frameOf (step (running { frame [0x59] [] with memory := counted }))).map Frame.stack = some [64] := by
  decide +kernel

theorem test_sha3_grows : memoryAfter [0x20] [0x40, 0] = some { cells := [], size := 64 } ∧
    memoryAfter [0x20] [3, 5] = some { cells := [], size := 32 } ∧ memoryAfter [0x20] [0, 0] = some Memory.empty := by
  decide +kernel

/-- R239: the digest is that of the bytes read, most significant first. -/
theorem test_sha3 : stackAfter [0x20] [3, 5] = some [beWord (Config.hash [0, 0, 0, 0, 0]).toList] := rfl

/-! Table 2.5. -/

theorem test_stop : statusOf (step (running (frame [0x00] [1]))) = some (.halted (.ret [])) ∧
    statusOf (step (running (frame [] [1]))) = some (.halted (.ret [])) := by decide +kernel

theorem test_jumpdest : stackAfter [0x5b] [1] = some [1] ∧
    (frameOf (step (running (frame [0x5b] [1])))).map Frame.pc = some 1 := by decide +kernel

theorem test_jump : (frameOf (step (running (frame [0x56, 0xfe, 0x5b] [2])))).map Frame.pc = some 3 ∧
    statusOf (step (running (frame [0x56, 0xfe, 0x5b] [1]))) = some (.halted (.fail .invalidJumpDestination)) := by
  decide +kernel

/-- R245: the byte 0x5b inside a PUSH is no target; R246: the whole Word is compared. -/
theorem test_jump_into_push :
    statusOf (step (running (frame [0x56, 0x60, 0x5b] [2]))) = some (.halted (.fail .invalidJumpDestination)) ∧
    statusOf (step (running (frame [0x56, 0x5b] [BitVec.ofNat 256 (2 ^ 64 + 1)]))) =
      some (.halted (.fail .invalidJumpDestination)) := by decide +kernel

theorem test_jumpi : (frameOf (step (running (frame [0x57, 0xfe, 0x5b] [2, 9])))).map Frame.pc = some 3 ∧
    (frameOf (step (running (frame [0x57, 0xfe, 0x5b] [0xff, 0])))).map Frame.pc = some 1 ∧
    statusOf (step (running (frame [0x57, 0xfe, 0x5b] [1, 1]))) = some (.halted (.fail .invalidJumpDestination)) := by
  decide +kernel

theorem test_pc : (frameOf (step (running { frame [0x5b, 0x5b, 0x58] [] with pc := 2 }))).map Frame.stack = some [2] := by
  decide +kernel

theorem test_unknown_opcode :
    statusOf (step (running (frame [0xfe] []))) = some (.halted (.fail .unknownOpcode)) := by decide +kernel

/-! Table 2.6: its context. -/

/-- The context of the table, with `code` running on `stack`. -/
def contextRun (code : Bytes) (stack : List Word) : Out :=
  step
    { running
        { frame code stack with
          address := some 0xaa, caller := some 0xbb, value := some 5, calldata := [0x11, 0x22, 0x33, 0x44] } with
      tx :=
        { toAddr := some 0xaa, fromAddr := some 0xbb, origin := some 0xcc, gasprice := some 7, value := some 5
          data := some [0x11, 0x22, 0x33, 0x44] }
      block :=
        { number := some 100, timestamp := some 0x5f5e100, coinbase := some 0xc0, gaslimit := some 30000000
          gasprice := none, difficulty := some 2, chainid := some 1, basefee := some 9 }
      world :=
        [(0xaa, { balance := 1000, code := [], storage := [] }),
         (0xdd, { balance := 77, code := [0x60, 0x01], storage := [] })] }

/-- The stack after one step in that context. -/
def contextStack (code : Bytes) (stack : List Word) : Option (List Word) :=
  (frameOf (contextRun code stack)).map Frame.stack

/-- The memory after one step in that context. -/
def contextMemory (code : Bytes) (stack : List Word) : Option Memory :=
  (frameOf (contextRun code stack)).map Frame.memory

theorem test_frame_context : contextStack [0x30] [] = some [0xaa] ∧ contextStack [0x33] [] = some [0xbb] ∧
    contextStack [0x32] [] = some [0xcc] ∧ contextStack [0x34] [] = some [5] ∧ contextStack [0x3a] [] = some [7] ∧
    contextStack [0x36] [] = some [4] ∧ contextStack [0x38, 0x00] [] = some [2] ∧ contextStack [0x3d] [] = some [0] ∧
    contextStack [0x47] [] = some [1000] := by decide +kernel

theorem test_block_context : contextStack [0x41] [] = some [0xc0] ∧ contextStack [0x42] [] = some [0x5f5e100] ∧
    contextStack [0x43] [] = some [100] ∧ contextStack [0x44] [] = some [2] ∧ contextStack [0x45] [] = some [0x1c9c380] ∧
    contextStack [0x46] [] = some [1] ∧ contextStack [0x48] [] = some [9] := by decide +kernel

theorem test_absent_context :
    statusOf (step (running (frame [0x42] []))) = some (.halted (.fail .missingContextField)) ∧
    statusOf (step (running (frame [0x30] []))) = some (.halted (.fail .missingContextField)) ∧
    stackAfter [0x36] [] = some [0] := by decide +kernel

theorem test_calldataload : contextStack [0x35] [2] = some [BitVec.ofNat 256 (0x3344 * 2 ^ 240)] ∧
    contextStack [0x35] [4] = some [0] := by decide +kernel

theorem test_calldatacopy : contextMemory [0x37] [0, 2, 4] = some { cells := [(0, 0x33), (1, 0x44)], size := 32 } ∧
    contextMemory [0x37] [0x40, 0, 0] = some { cells := [], size := 64 } := by decide +kernel

theorem test_codecopy : contextMemory [0x39, 0x11] [2, 0, 3] = some { cells := [(2, 0x39), (3, 0x11)], size := 32 } := by
  decide +kernel

theorem test_balance : contextStack [0x31] [0xdd] = some [77] ∧ contextStack [0x31] [0xee] = some [0] ∧
    contextStack [0x31] [BitVec.ofNat 256 (2 ^ 248 + 0xdd)] = some [77] := by decide +kernel

theorem test_extcodesize : contextStack [0x3b] [0xdd] = some [2] ∧ contextStack [0x3b] [0xaa] = some [0] := by
  decide +kernel

theorem test_extcodecopy : contextMemory [0x3c] [0xdd, 0, 0, 4] =
    some { cells := [(0, 0x60), (1, 0x01)], size := 32 } := by decide +kernel

theorem test_extcodehash_absent : contextStack [0x3f] [0xee] = some [0] ∧ contextStack [0x3f] [0xaa] = some [0] := by
  decide +kernel

theorem test_extcodehash : contextStack [0x3f] [0xdd] = some [beWord (Config.hash [0x60, 0x01]).toList] := rfl

/-- R270 under both settings. -/
theorem test_returndatacopy : memoryAfter [0x3e] [0, 0, 4] = some { cells := [], size := 32 } ∧
    statusOf (step
      { running (frame [0x3e] [0, 0, 4]) with params := { Params.defaults with returndatacopyOob := .fail } }) =
      some (.halted (.fail .returnDataOutOfBounds)) := by decide +kernel

/-! Table 2.7. -/

/-- A frame of the account 0xaa. -/
def ownFrame (code : Bytes) (stack : List Word) : Frame := { frame code stack with address := some 0xaa }

theorem test_sstore :
    (stateOf (step (running (ownFrame [0x55] [1, 7])))).map State.world =
      some [(0xaa, { balance := 0, code := [], storage := [(1, 7)] })] ∧
    statusOf (step (running { ownFrame [0x55] [1, 7] with isStatic := true })) =
      some (.halted (.fail .staticViolation)) := by decide +kernel

theorem test_sload :
    (frameOf (step
      { running (ownFrame [0x54] [1]) with
        world := [(0xaa, { balance := 0, code := [], storage := [(1, 7)] })] })).map Frame.stack = some [7] ∧
    statusOf (step (running (frame [0x54] [1]))) = some (.halted (.fail .missingContextField)) := by decide +kernel

/-- The memory of the LOG2 vector: MSTORE(0, 0xbeef). -/
def beef : Memory := { cells := [(30, 0xbe), (31, 0xef)], size := 32 }

theorem test_log2 :
    (stateOf (step (running { ownFrame [0xa2] [30, 2, 0xaa, 0xbb] with memory := beef }))).map State.logs =
      some [{ address := 0xaa, data := [0xbe, 0xef], topics := [0xaa, 0xbb] }] := by decide +kernel

theorem test_log0_log1_log3_log4 :
    (stateOf (step (running (ownFrame [0xa0] [0, 0])))).map State.logs =
      some [{ address := 0xaa, data := [], topics := [] }] ∧
    statusOf (step (running (ownFrame [0xa1] [0, 0]))) = some (.halted (.fail .stackUnderflow)) ∧
    (stateOf (step (running (ownFrame [0xa3] [0, 0, 1, 2, 3, 4])))).map State.logs =
      some [{ address := 0xaa, data := [], topics := [1, 2, 3] }] ∧
    (stateOf (step (running (ownFrame [0xa4] [0, 0, 1, 2, 3, 4])))).map State.logs =
      some [{ address := 0xaa, data := [], topics := [1, 2, 3, 4] }] := by decide +kernel

/-! Table 2.8: one step of the calls, and one return. -/

/-- 0xaa has 10 units; 0xb0 has the code `34`. -/
def twoAccounts : World :=
  [(0xaa, { balance := 10, code := [], storage := [] }), (0xb0, { balance := 0, code := [0x34], storage := [] })]

/-- One step of `code` in a frame of 0xaa called by 0xf0 with 9 units. -/
def callStep (code : Bytes) (stack : List Word) : Out :=
  step
    { running { ownFrame code stack with caller := some 0xf0, value := some 9, memory := beef } with
      world := twoAccounts }

/-- The address, caller, value, call data and static flag of the running frame. -/
def callContext (f : Frame) : Option Addr × Option Addr × Option Word × Bytes × Bool :=
  (f.address, f.caller, f.value, f.calldata, f.isStatic)

/-- K4 and K8: the value moves, the input is read. -/
theorem test_call : (frameOf (callStep [0xf1] [0xb0, 3, 30, 2, 0, 0])).map callContext =
      some (some 0xb0, some 0xaa, some 3, [0xbe, 0xef], false) ∧
    (stateOf (callStep [0xf1] [0xb0, 3, 30, 2, 0, 0])).map (fun t => (balanceOf t.world 0xaa, balanceOf t.world 0xb0)) =
      some (7, 3) := by decide +kernel

/-- K2 and K3: no account, and too little balance. -/
theorem test_call_without_frame :
    (frameOf (callStep [0xf1] [0xb1, 0, 0, 0, 0, 0x20])).map (fun f => (f.stack, f.memory.size)) = some ([0], 32) ∧
    (frameOf (callStep [0xf1] [0xb0, 11, 0, 0, 0, 0])).map Frame.stack = some [0] := by decide +kernel

/-- K10. -/
theorem test_delegatecall : (frameOf (callStep [0xf4] [0xb0, 0, 0, 0, 0])).map callContext =
    some (some 0xaa, some 0xf0, some 9, [], false) := by decide +kernel

theorem test_staticcall : (frameOf (callStep [0xfa] [0xb0, 0, 0, 0, 0])).map callContext =
    some (some 0xb0, some 0xaa, some 0, [], true) := by decide +kernel

/-- K15 and K16. -/
theorem test_create : (frameOf (callStep [0xf0] [11, 0, 0])).map Frame.stack = some [0] ∧
    (stateOf (callStep [0xf0] [4, 30, 2])).map (fun t => (t.nonce, t.frames.map Frame.code)) =
      some ([(0xaa, 1)], [[0xbe, 0xef], [0xf0]]) := by decide +kernel

/-- K6: the output of a child is copied, zero-padded, over the region. -/
theorem test_call_return :
    (frameOf (step
      { running { frame [] [] with status := .halted (.ret [0x11]), kind := .call 30 2 } with
        frames :=
          [{ frame [] [] with status := .halted (.ret [0x11]), kind := .call 30 2 }, { frame [] [5] with memory := beef }]
      })).map (fun f => (f.stack, f.memory.cells, f.returndata)) = some ([1, 5], [(30, 0x11)], [0x11]) := by
  decide +kernel

theorem test_return_revert : statusOf (callStep [0xf3] [30, 2]) = some (.halted (.ret [0xbe, 0xef])) ∧
    statusOf (callStep [0xfd] [30, 2]) = some (.halted (.revert [0xbe, 0xef])) := by decide +kernel

/-- K17. -/
theorem test_selfdestruct :
    (stateOf (callStep [0xff] [0xb0])).map
        (fun t => (balanceOf t.world 0xaa, balanceOf t.world 0xb0, t.destruct, t.frames.map Frame.status)) =
      some (0, 10, [0xaa], [.halted (.ret [])]) := by decide +kernel

/-- K17: the marked account is gone at the end of the run. -/
theorem test_run_end :
    (stateOf (step
      { running { frame [] [] with status := .halted (.ret []) } with world := twoAccounts, destruct := [0xaa] })).map
        (fun t => (t.runStatus, t.world.map Prod.fst)) = some (.done, [0xb0]) := by decide +kernel

/-! R393: a pc and a length wider than the registers. -/

/-- `code` on `stack`, with a pc register that holds up to 2 and length registers that hold up to 32. -/
def narrowStep (code : Bytes) (stack : List Word) : Out :=
  step
    { running (frame code stack) with
      params := { Params.defaults with pcLimit := some 2, lengthLimit := some 32 } }

theorem test_pc_width : refusalOf (narrowStep [0x61] []) = some .registerWidthExceeded ∧
    (frameOf (narrowStep [0x60] [])).map Frame.pc = some 2 ∧
    refusalOf (narrowStep [0x56, 0x00, 0x5b] [2]) = some .registerWidthExceeded ∧
    (frameOf (narrowStep [0x56, 0x5b] [1])).map Frame.pc = some 2 := by decide +kernel

theorem test_length_width : refusalOf (narrowStep [0x20] [0, 33]) = some .registerWidthExceeded ∧
    statusOf (narrowStep [0xf3] [100, 32]) = some (.halted (.ret (List.replicate 32 0))) := by decide +kernel

/-! The host's two tools. -/

/-- The word of PUSH2 0x0102 as the opcode table numbers its bits, and the word of ADD. -/
theorem test_table_words : decodeTableWord 24 0x020161 = some (.push2 0x0102) ∧ decodeTableWord 8 0x01 = some .add ∧
    decodeTableWord 264 0x7f = some (.push32 0) := by decide +kernel

theorem test_with_fetch_word :
    (frameOf (step (State.reset.withFetchWord 24 0x020161))).map (fun f => (f.stack, f.pc)) = some ([0x0102], 3) := by
  decide +kernel

/-! ## Witnesses: the hypotheses of the statements are met -/

/-- With no bound on the length registers and no capacity every access fits. -/
theorem fits_of_none {s : State} {f : Frame} {off n : Nat} (hl : s.params.lengthLimit = none)
    (hc : s.params.memCapacity = none) : Fits s f off n :=
  ⟨fun l h => (by rw [hl] at h; cases h), fun c h => (by rw [hc] at h; cases h)⟩

/-- With no bound on the pc register every pc fits. -/
theorem pcFits_of_none {s : State} {n : Nat} (h : s.params.pcLimit = none) : PcFits s n :=
  fun l hl => (by rw [h] at hl; cases hl)

/-- A machine whose parameters are the defaults but for MEM_CAPACITY. -/
def capped (f : Frame) (capacity : Nat) : State :=
  { running f with params := { Params.defaults with memCapacity := some capacity } }

/-- A machine whose parameters are the defaults but for the bounds of its pc and length registers. -/
def narrow (f : Frame) (pcLimit lengthLimit : Nat) : State :=
  { running f with params := { Params.defaults with pcLimit := some pcLimit, lengthLimit := some lengthLimit } }

/-- The bound that an access, a length or a pc needs exactly is enough; one less is not. -/
theorem fits_at_the_boundary : Fits (capped (frame [] []) 32) (frame [] []) 0 32 ∧
    LengthFits (capped (frame [] []) 31) 32 ∧ ¬CapacityFits (capped (frame [] []) 31) (frame [] []) 0 32 ∧
    Fits (narrow (frame [] []) 0 32) (frame [] []) 0 32 ∧ ¬LengthFits (narrow (frame [] []) 0 31) 32 ∧
    PcFits (narrow (frame [] []) 2 0) 2 ∧ ¬PcFits (narrow (frame [] []) 1 0) 2 :=
  ⟨⟨fun l hl => (by cases hl), fun c hc => (by cases hc; decide)⟩, fun l hl => (by cases hl),
    fun h => absurd (h 31 rfl) (by decide), ⟨fun l hl => (by cases hl; decide), fun c hc => (by cases hc)⟩,
    fun h => absurd (h 31 rfl) (by decide), fun l hl => (by cases hl; decide), fun h => absurd (h 1 rfl) (by decide)⟩

/-- A machine whose parameters are the defaults but for STEP_LIMIT. -/
def limited (f : Frame) (limit : Nat) : State :=
  { running f with params := { Params.defaults with stepLimit := some limit } }

/-- With no limit every fetch is allowed, and with a limit the fetch that reaches it. -/
theorem mayFetch_boundary (f : Frame) : MayFetch (running f) ∧ MayFetch (limited f 1) :=
  ⟨fun l hl => (by cases hl), fun l hl => (by cases hl; exact Nat.le_refl _)⟩

theorem witness_DecodeOfEncode : (Instr.push1 0xff).wf = true ∧ (Instr.push32 maxWord).wf = true ∧
    Instr.selfdestruct.wf = true := by decide +kernel

theorem witness_EncodeOfDecode : decode [0x61, 0xab] = .instr (.push2 0xab00) [] ∧
    decode [0x01, 0x02] = .instr .add [0x02] := by decide +kernel

theorem witness_UnknownOpcodes : Running (running (frame [0xfe] [])) (frame [0xfe] []) [] ∧
    (frame [0xfe] []).code[(frame [0xfe] []).pc]? = some 0xfe ∧ MayFetch (running (frame [0xfe] [])) ∧
    decode [0xfe] = .unknownOpcode 0xfe ∧ decode [0x0c, 0x01] = .unknownOpcode 0x0c :=
  ⟨⟨rfl, rfl, rfl⟩, rfl, (mayFetch_boundary _).1, by decide +kernel, by decide +kernel⟩

theorem witness_RangeCodedFamilies : decode [0x7f] = .instr (.push32 0) [] ∧ decode [0x5f] = .instr .push0 [] := by
  decide +kernel

theorem witness_StepExecutesDecoded : Running (running (frame [0x01] [1, 2])) (frame [0x01] [1, 2]) [] ∧
    decode ((frame [0x01] [1, 2]).code.drop (frame [0x01] [1, 2]).pc) = .instr .add [] ∧
    MayFetch (running (frame [0x01] [1, 2])) ∧ Running (limited (frame [0x01] [1, 2]) 1) (frame [0x01] [1, 2]) [] ∧
    MayFetch (limited (frame [0x01] [1, 2]) 1) ∧ PcFits (running (frame [0x01] [1, 2])) (0 + Instr.add.length) ∧
    PcFits (narrow (frame [0x01] [1, 2]) 1 0) (0 + Instr.add.length) :=
  ⟨⟨rfl, rfl, rfl⟩, by decide +kernel, (mayFetch_boundary _).1, ⟨rfl, rfl, rfl⟩, (mayFetch_boundary _).2,
    pcFits_of_none rfl, fun l hl => (by cases hl; decide)⟩

theorem witness_EndOfCodeHalts : Running (running (frame [] [1])) (frame [] [1]) [] ∧
    (frame [] [1]).code.length ≤ (frame [] [1]).pc := ⟨⟨rfl, rfl, rfl⟩, Nat.le_refl _⟩

theorem witness_PushReadsImmediate :
    (Running (running (frame [0x7f, 0x01] [])) (frame [0x7f, 0x01] []) [] ∧
      MayFetch (running (frame [0x7f, 0x01] [])) ∧ PcFits (running (frame [0x7f, 0x01] [])) (0 + 1 + 32) ∧
      (frame [0x7f, 0x01] []).code[(frame [0x7f, 0x01] []).pc]? = some (BitVec.ofNat 8 (0x5f + 32)) ∧
      (frame [0x7f, 0x01] []).stack.length < (running (frame [0x7f, 0x01] [])).params.stackLimit) ∧
    (frame [0x60] (List.replicate 1024 0)).code[(frame [0x60] (List.replicate 1024 0)).pc]? =
      some (BitVec.ofNat 8 (0x5f + 1)) ∧
    (running (frame [0x60] [])).params.stackLimit ≤ (frame [0x60] (List.replicate 1024 0)).stack.length :=
  ⟨⟨⟨rfl, rfl, rfl⟩, (mayFetch_boundary _).1, pcFits_of_none rfl, rfl, by decide +kernel⟩, rfl, by decide +kernel⟩

/-- The three clauses of `PushEffect`: room for one Word and a Word to push; room and no such Word; no room. -/
theorem witness_PushEffect :
    (running (frame [0x5f] (List.replicate 1023 0))).frames = [frame [0x5f] (List.replicate 1023 0)] ∧
    (frame [0x5f] (List.replicate 1023 0)).stack.length < (running (frame [0x5f] [])).params.stackLimit ∧
    (ownFrame [0x30] []).address.map (BitVec.setWidth 256) = some (0xaa : Word) ∧
    (frame [0x30] []).address.map (BitVec.setWidth 256) = (none : Option Word) ∧
    (running (frame [0x5f] [])).params.stackLimit ≤ (frame [0x5f] (List.replicate 1024 0)).stack.length := by
  decide +kernel

/-- `UnaryRule`, `BinaryRule`, `TernaryRule` (POP, arithmetic, comparison, bitwise, account reads): a stack of exactly the
operands, and one of one Word less. -/
theorem witness_operand_rules :
    (running (frame [] [7])).frames = [frame [] [7]] ∧ (frame [] [7]).stack = 7 :: [] ∧ (frame [] []).stack = [] ∧
    (frame [] [7, 8]).stack = 7 :: 8 :: [] ∧ (frame [] [7]).stack.length < 2 ∧
    (frame [] [7, 8, 9]).stack = 7 :: 8 :: 9 :: [] ∧ (frame [] [7, 8]).stack.length < 3 := by decide +kernel

theorem witness_DupInstructions :
    (running (frame [] (List.replicate 16 3))).frames = [frame [] (List.replicate 16 3)] ∧
    (frame [] (List.replicate 16 3)).stack[16 - 1]? = some 3 ∧ (frame [] [1]).stack[1 - 1]? = some 1 ∧
    (frame [] (List.replicate 16 3)).stack.length < Params.defaults.stackLimit ∧
    (frame [] (List.replicate 15 3)).stack.length < 16 ∧ (frame [] []).stack.length < 1 ∧
    16 ≤ (frame [] (List.replicate 1024 3)).stack.length ∧
    Params.defaults.stackLimit ≤ (frame [] (List.replicate 1024 3)).stack.length := by decide +kernel

theorem witness_SwapInstructions :
    (frame [] [2, 1]).stack = 2 :: (([] : List Word) ++ 1 :: []) ∧ ([] : List Word).length + 1 = 1 ∧
    (frame [] (9 :: (List.replicate 15 5 ++ [4]))).stack = 9 :: (List.replicate 15 5 ++ 4 :: []) ∧
    (List.replicate 15 (5 : Word)).length + 1 = 16 ∧ (frame [] [1]).stack.length < 1 + 1 ∧
    (frame [] (List.replicate 16 5)).stack.length < 16 + 1 := by decide +kernel

theorem witness_ArithmeticLaws : (maxWord : Word) ≠ 0 ∧ ¬((minWord + 1 : Word) = minWord ∧ maxWord = maxWord) ∧
    (1 : Word) ≠ 0 := by decide +kernel

theorem witness_MemoryUnit : beef.wf ∧ beef.size % 32 = 0 ∧ (1 : Nat) ≠ 0 ∧ 0 < 1 := by decide +kernel

theorem witness_MemoryReads : (running (frame [] [0])).frames = [frame [] [0]] ∧
    Fits (running (frame [] [0])) (frame [] [0]) 0 32 ∧ (frame [] [3, 5]).stack = 3 :: 5 :: [] ∧
    Fits (running (frame [] [3, 5])) (frame [] [3, 5]) 3 5 ∧ (frame [] [3]).stack.length < 2 :=
  ⟨rfl, fits_of_none rfl rfl, rfl, fits_of_none rfl rfl, by decide⟩

theorem witness_MemoryWrites : (capped (frame [] [0, 7]) 32).frames = [frame [] [0, 7]] ∧
    (frame [] [0, 7]).stack = 0 :: 7 :: [] ∧ Fits (capped (frame [] [0, 7]) 32) (frame [] [0, 7]) 0 32 ∧
    Fits (capped (frame [] [0, 7]) 32) (frame [] [0, 7]) 0 1 ∧ (frame [] [0]).stack.length < 2 :=
  ⟨rfl, rfl, ⟨fun l hl => (by cases hl), fun c hc => (by cases hc; decide)⟩,
    ⟨fun l hl => (by cases hl), fun c hc => (by cases hc; decide)⟩, by decide⟩

theorem witness_CopyInstructions : (frame [] [0, 2, 4]).stack = 0 :: 2 :: 4 :: [] ∧
    Fits (running (frame [] [0, 2, 4])) (frame [] [0, 2, 4]) 0 4 ∧ (frame [] [0, 2]).stack.length < 3 ∧
    (frame [] [0xdd, 0, 2, 4]).stack = 0xdd :: 0 :: 2 :: 4 :: [] ∧
    Fits (running (frame [] [0xdd, 0, 2, 4])) (frame [] [0xdd, 0, 2, 4]) 0 4 ∧ (frame [] [0, 2, 4]).stack.length < 4 :=
  ⟨rfl, fits_of_none rfl rfl, by decide, rfl, fits_of_none rfl rfl, by decide⟩

/-- Both settings of RETURNDATACOPY_OOB, at the last byte of the return data and one past it. -/
theorem witness_ReturnDataCopy : Params.defaults.returndatacopyOob = .zeroPad ∧
    (1 : Word).toNat + (1 : Word).toNat ≤ { frame [] [0, 1, 1] with returndata := [5, 6] }.returndata.length ∧
    { Params.defaults with returndatacopyOob := .fail }.returndatacopyOob = .fail ∧
    { frame [] [0, 1, 2] with returndata := [5, 6] }.returndata.length < (1 : Word).toNat + (2 : Word).toNat ∧
    Fits (running (frame [] [0, 1, 1])) (frame [] [0, 1, 1]) 0 1 ∧ (frame [] [0, 1]).stack.length < 3 :=
  ⟨rfl, by decide, rfl, by decide, fits_of_none rfl rfl, by decide⟩

/-- A store, at the first byte after the stored ones; a form that stores nothing; and a frame that a call suspends. -/
theorem witness_OnlyStoredBytesChange :
    (∃ t g, exec .mstore (running (frame [] [0, 7])) = .next t ∧ OwnFrame t.frames g [] ∧
      ∀ off n, storeRegion .mstore (frame [] [0, 7]).stack = some (off, n) → 32 < off ∨ off + n ≤ 32) ∧
    (∃ t g, exec .add (running (frame [] [0, 7])) = .next t ∧ OwnFrame t.frames g [] ∧
      ∀ off n, storeRegion .add (frame [] [0, 7]).stack = some (off, n) → 0 < off ∨ off + n ≤ 0) ∧
    ∃ t g, exec .staticcall { running (ownFrame [] [0xb0, 0, 0, 0, 0]) with world := twoAccounts } = .next t ∧
      OwnFrame t.frames g [] :=
  ⟨⟨_, _, rfl, .inl rfl, fun off n h => (by cases h; decide)⟩, ⟨_, _, rfl, .inl rfl, fun off n h => (by cases h)⟩,
    _, _, rfl, .inr ⟨_, rfl⟩⟩

/-- The first two clauses: a fetch past STEP_LIMIT, and a pc one past the register; then, for both parts of
`AccessRefused`, an access one byte past the bound. -/
theorem witness_LimitsRefuse_bounds : Running (limited (frame [0x01] [1, 2]) 0) (frame [0x01] [1, 2]) [] ∧
    (frame [0x01] [1, 2]).pc < (frame [0x01] [1, 2]).code.length ∧
    (limited (frame [0x01] [1, 2]) 0).params.stepLimit = some 0 ∧ 0 < (limited (frame [0x01] [1, 2]) 0).steps + 1 ∧
    Running (narrow (frame [0x61] []) 2 9) (frame [0x61] []) [] ∧ decode [0x61] = .instr (.push2 0) [] ∧
    MayFetch (narrow (frame [0x61] []) 2 9) ∧ ¬PcFits (narrow (frame [0x61] []) 2 9) (0 + (Instr.push2 0).length) ∧
    ¬LengthFits (narrow (frame [] [0]) 0 31) 32 ∧ LengthFits (capped (frame [] [0]) 31) 32 ∧
    ¬CapacityFits (capped (frame [] [0]) 31) (frame [] [0]) 0 32 :=
  ⟨⟨rfl, rfl, rfl⟩, by decide, rfl, by decide, ⟨rfl, rfl, rfl⟩, by decide +kernel, fun l hl => (by cases hl),
    fun h => absurd (h 2 rfl) (by decide), fun h => absurd (h 31 rfl) (by decide), fun l hl => (by cases hl),
    fun h => absurd (h 31 rfl) (by decide)⟩

/-- The clauses by the shape of the stack: one, two, three and four operands; RETURNDATACOPY with its read allowed; LOG0
and LOG4. -/
theorem witness_LimitsRefuse_stacks : (frame [] [0]).stack = 0 :: [] ∧ (frame [] [0, 33]).stack = 0 :: 33 :: [] ∧
    (frame [] [0, 2, 33]).stack = 0 :: 2 :: 33 :: [] ∧ (frame [] [0xdd, 0, 2, 33]).stack = 0xdd :: 0 :: 2 :: 33 :: [] ∧
    { Params.defaults with returndatacopyOob := .fail }.returndatacopyOob ≠ .zeroPad ∧
    (1 : Word).toNat + (1 : Word).toNat ≤ { frame [] [0, 1, 1] with returndata := [5, 6] }.returndata.length ∧
    (ownFrame [] [0, 33]).stack = 0 :: 33 :: (([] : List Word) ++ []) ∧ (ownFrame [] [0, 33]).isStatic = false ∧
    (ownFrame [] [0, 33]).address = some 0xaa ∧
    (ownFrame [] [0, 33, 1, 2, 3, 4]).stack = 0 :: 33 :: ([1, 2, 3, 4] ++ []) ∧ ([1, 2, 3, 4] : List Word).length = 4 := by
  decide +kernel

/-- The clauses of CREATE and of the calls, at the depth limit and with all the balance. -/
theorem witness_LimitsRefuse_calls : (ownFrame [] [10, 0, 33]).stack = 10 :: 0 :: 33 :: [] ∧
    (ownFrame [] [10, 0, 33]).isStatic = false ∧ (ownFrame [] [10, 0, 33]).address = some 0xaa ∧
    { ownFrame [] [] with depth := 1023 }.depth + 1 ≤ Params.defaults.depthLimit ∧
    (10 : Word).toNat ≤ (balanceOf twoAccounts 0xaa).toNat ∧ codeOf twoAccounts ((0xb0 : Word).setWidth 160) ≠ [] ∧
    (ownFrame [] [0xb0, 10, 0, 33, 3, 4]).stack =
      callStack (running (frame [] [])) 9 (0xb0 :: 10 :: 0 :: 33 :: 3 :: 4 :: []) ∧
    (ownFrame [] [0xb0, 0, 33, 3, 4]).stack = callStack (running (frame [] [])) 9 (0xb0 :: 0 :: 33 :: 3 :: 4 :: []) := by
  decide +kernel

/-- The clause of the jumps: a valid target whose pc is one past the register, with and without a condition. -/
theorem witness_LimitsRefuse_jumps : (frame [0x56, 0x5b] [1]).jumpdests = jumpdests (frame [0x56, 0x5b] [1]).code ∧
    (1 : Word).toNat ∈ jumpdests [0x56, 0x5b] ∧ ¬PcFits (narrow (frame [0x56, 0x5b] [1]) 1 0) ((1 : Word).toNat + 1) ∧
    (frame [0x56, 0x5b] [1]).stack = 1 :: [] ∧ (9 : Word) ≠ 0 ∧ (frame [0x57, 0x5b] [1, 9]).stack = 1 :: 9 :: [] :=
  ⟨rfl, by decide +kernel, fun h => absurd (h 1 rfl) (by decide), rfl, by decide, rfl⟩

theorem witness_Jumps : (frame [0x56, 0x5b] [1]).jumpdests = jumpdests (frame [0x56, 0x5b] [1]).code ∧
    (frame [0x56, 0x5b] [1]).stack = 1 :: [] ∧ (1 : Word).toNat ∈ jumpdests [0x56, 0x5b] ∧
    PcFits (narrow (frame [0x56, 0x5b] [1]) 2 0) ((1 : Word).toNat + 1) ∧ (0 : Word).toNat ∉ jumpdests [0x56, 0x5b] ∧ (frame [0x57, 0x5b] [1, 0]).stack = 1 :: 0 :: [] ∧
    (frame [0x57, 0x5b] [1, 9]).stack = 1 :: 9 :: [] ∧ (9 : Word) ≠ 0 ∧ (frame [0x57] [1]).stack.length < 2 :=
  ⟨rfl, rfl, by decide +kernel, fun l hl => (by cases hl; decide), by decide +kernel, rfl, rfl, by decide, by decide⟩

theorem witness_StorageInstructions : (ownFrame [] [1]).stack = 1 :: [] ∧ (ownFrame [] [1]).address = some 0xaa ∧
    (frame [] [1]).stack ≠ [] ∧ (frame [] [1]).address = none ∧ (ownFrame [] [1, 7]).stack = 1 :: 7 :: [] ∧
    (ownFrame [] [1, 7]).isStatic = false ∧ (ownFrame [] [1]).stack.length < 2 ∧ 2 ≤ (ownFrame [] [1, 7]).stack.length ∧
    { ownFrame [] [1, 7] with isStatic := true }.isStatic = true ∧ 2 ≤ (frame [] [1, 7]).stack.length := by
  decide +kernel

theorem witness_WorldWritesReadBack : worldWf twoAccounts ∧ mapGet twoAccounts (0xc0 : Addr).toNat = none := by
  decide +kernel

theorem witness_TransferMovesValue : (10 : Word).toNat ≤ (balanceOf twoAccounts 0xaa).toNat ∧ (0xaa : Addr) ≠ 0xb0 := by
  decide +kernel

theorem witness_LogInstructions :
    (ownFrame [] [0, 2, 5, 6]).stack = 0 :: 2 :: ([5, 6] ++ []) ∧ ([5, 6] : List Word).length = 2 ∧
    (ownFrame [] [0, 2]).stack = 0 :: 2 :: (([] : List Word) ++ []) ∧ (ownFrame [] [0, 2]).isStatic = false ∧
    (ownFrame [] [0, 2]).address = some 0xaa ∧ Fits (running (ownFrame [] [0, 2])) (ownFrame [] [0, 2]) 0 2 ∧
    (ownFrame [] [0]).stack.length < 0 + 2 ∧ 4 + 2 ≤ (ownFrame [] [0, 2, 3, 4, 5, 6]).stack.length ∧
    { ownFrame [] [0, 2] with isStatic := true }.isStatic = true ∧ (frame [] [0, 2]).address = none :=
  ⟨rfl, rfl, rfl, rfl, rfl, fits_of_none rfl rfl, by decide, by decide, rfl, rfl⟩

/-- CALL with value 0 and with all the balance; DELEGATECALL and STATICCALL; with and without the gas operand; at the depth
limit. -/
theorem witness_CallEntersChild : codeOf twoAccounts ((0xb0 : Word).setWidth 160) ≠ [] ∧
    { ownFrame [] [] with depth := 1023 }.depth + 1 ≤ Params.defaults.depthLimit ∧
    Fits (running (ownFrame [] [0xb0, 0, 1, 2, 3, 4])) (ownFrame [] [0xb0, 0, 1, 2, 3, 4]) 1 2 ∧
    (ownFrame [] [0xb0, 0, 1, 2, 3, 4]).stack = callStack (running (frame [] [])) 9 (0xb0 :: 0 :: 1 :: 2 :: 3 :: 4 :: []) ∧
    [(9 : Word), 0xb0, 0, 1, 2, 3, 4] =
      callStack { running (frame [] []) with params := { Params.defaults with callHasGasOperand := true } } 9
        (0xb0 :: 0 :: 1 :: 2 :: 3 :: 4 :: []) ∧
    (10 : Word) ≠ 0 ∧ (ownFrame [] []).isStatic = false ∧ (ownFrame [] []).address = some 0xaa ∧
    (10 : Word).toNat ≤ (balanceOf twoAccounts 0xaa).toNat ∧
    (ownFrame [] [0xb0, 1, 2, 3, 4]).stack = callStack (running (frame [] [])) 9 (0xb0 :: 1 :: 2 :: 3 :: 4 :: []) :=
  ⟨by decide +kernel, by decide, fits_of_none rfl rfl, rfl, rfl, by decide +kernel, rfl, rfl, by decide +kernel, rfl⟩

/-- Each of the three reasons, one unit past the boundary for the depth and the balance. -/
theorem witness_NoFrameOutcomes : codeOf twoAccounts ((0xc0 : Word).setWidth 160) = [] ∧
    Params.defaults.depthLimit < { ownFrame [] [] with depth := 1024 }.depth + 1 ∧
    (balanceOf twoAccounts 0xaa).toNat < (11 : Word).toNat ∧ (ownFrame [] []).address = some 0xaa ∧
    (ownFrame [] []).isStatic = false ∧ (ownFrame [] []).address ≠ none ∧
    (ownFrame [] [11, 0, 0]).stack = 11 :: 0 :: 0 :: [] := by decide +kernel

theorem witness_CreateEntersChild : (ownFrame [] [0, 0]).stack.length < 3 ∧ 3 ≤ (ownFrame [] [0, 0, 0]).stack.length ∧
    { ownFrame [] [0, 0, 0] with isStatic := true }.isStatic = true ∧ (frame [] [0, 0, 0]).address = none ∧
    (ownFrame [] [10, 0, 2]).stack = 10 :: 0 :: 2 :: [] ∧ (ownFrame [] [10, 0, 2]).isStatic = false ∧
    (ownFrame [] [10, 0, 2]).address = some 0xaa ∧ (ownFrame [] [10, 0, 2]).depth + 1 ≤ Params.defaults.depthLimit ∧
    (10 : Word).toNat ≤ (balanceOf twoAccounts 0xaa).toNat ∧
    Fits (running (ownFrame [] [10, 0, 2])) (ownFrame [] [10, 0, 2]) 0 2 :=
  ⟨by decide, by decide, rfl, rfl, rfl, rfl, rfl, by decide, by decide +kernel, fits_of_none rfl rfl⟩

/-- A frame halted with `o`, of the kind `k`, at depth 1. -/
def haltedChild (o : HaltOutcome) (k : FrameKind) : Frame :=
  { frame [] [] with status := .halted o, kind := k, depth := 1 }

/-- A machine with the child `k` on top of a parent. -/
def withChild (k : Frame) : State := { running k with frames := [k, frame [] [5]] }

theorem witness_CallReturns :
    (withChild (haltedChild (.ret [1]) (.call 0 1))).runStatus = .running ∧
    (withChild (haltedChild (.ret [1]) (.call 0 1))).frames = [haltedChild (.ret [1]) (.call 0 1), frame [] [5]] ∧
    Fits (withChild (haltedChild (.ret [1]) (.call 0 1))) (frame [] [5]) 0 1 ∧
    (haltedChild (.ret [1]) (.call 0 1)).kind = .call 0 1 ∧
    (haltedChild (.ret [1]) (.call 0 1)).status = .halted (.ret [1]) ∧
    (haltedChild (.revert []) (.delegateCall 0 0)).kind = .delegateCall 0 0 ∧
    (haltedChild (.revert []) (.delegateCall 0 0)).status = .halted (.revert []) ∧
    (haltedChild (.fail .unknownOpcode) (.staticCall 0 0)).kind = .staticCall 0 0 ∧
    (haltedChild (.fail .unknownOpcode) (.staticCall 0 0)).status = .halted (.fail .unknownOpcode) :=
  ⟨rfl, rfl, fits_of_none rfl rfl, rfl, rfl, rfl, rfl, rfl, rfl⟩

/-- The clause of LimitsRefuse for a call's return: the output region is one byte past each bound of the parent. -/
theorem witness_LimitsRefuse_return :
    (withChild (haltedChild (.ret [1]) (.call 0 33))).runStatus = .running ∧
    (withChild (haltedChild (.ret [1]) (.call 0 33))).frames = [haltedChild (.ret [1]) (.call 0 33), frame [] [5]] ∧
    (haltedChild (.ret [1]) (.call 0 33)).status = .halted (.ret [1]) ∧
    (haltedChild (.ret [1]) (.call 0 33)).kind = .call 0 33 ∧
    ¬LengthFits (narrow (frame [] [5]) 0 32) 33 ∧ LengthFits (capped (frame [] [5]) 63) 33 ∧
    ¬CapacityFits (capped (frame [] [5]) 63) (frame [] [5]) 0 33 :=
  ⟨rfl, rfl, rfl, rfl, fun h => absurd (h 32 rfl) (by decide), fun l hl => (by cases hl),
    fun h => absurd (h 63 rfl) (by decide)⟩

theorem witness_CreateReturns :
    (withChild (haltedChild (.ret [1]) (.create 0xcc 4))).frames = [haltedChild (.ret [1]) (.create 0xcc 4), frame [] [5]] ∧
    (haltedChild (.ret [1]) (.create 0xcc 4)).kind = .create 0xcc 4 ∧
    (haltedChild (.ret [1]) (.create 0xcc 4)).status = .halted (.ret [1]) ∧
    (haltedChild (.revert [2]) (.create 0xcc 4)).status = .halted (.revert [2]) ∧
    (haltedChild (.fail .stackUnderflow) (.create 0xcc 4)).status = .halted (.fail .stackUnderflow) := by decide +kernel

theorem witness_ReturnAndRevert : (frame [] [30, 2]).stack = 30 :: 2 :: [] ∧
    Fits (running (frame [] [30, 2])) (frame [] [30, 2]) 30 2 ∧ (frame [] [30]).stack.length < 2 :=
  ⟨rfl, fits_of_none rfl rfl, by decide⟩

theorem witness_SelfdestructRule : (ownFrame [] []).stack = [] ∧ (ownFrame [] [0xb0]).stack ≠ [] ∧
    { ownFrame [] [0xb0] with isStatic := true }.isStatic = true ∧ (frame [] [0xb0]).address = none ∧
    (ownFrame [] [0xb0]).stack = 0xb0 :: [] ∧ (ownFrame [] [0xb0]).isStatic = false ∧
    (ownFrame [] [0xb0]).address = some 0xaa := by decide +kernel

theorem witness_RunEnds :
    (running (haltedChild (.ret [1]) .top)).runStatus = .running ∧
    (running (haltedChild (.ret [1]) .top)).frames = [haltedChild (.ret [1]) .top] ∧
    (haltedChild (.ret [1]) .top).status = .halted (.ret [1]) ∧
    (haltedChild (.revert [1]) .top).status = .halted (.revert [1]) ∧
    (haltedChild (.fail .unknownOpcode) .top).status = .halted (.fail .unknownOpcode) := by decide +kernel

/-- UnderflowTable, OverflowTable, StaticViolationTable, MissingContextTable: their hypotheses, and each side of each
equivalence met. -/
theorem witness_failure_tables :
    (running (frame [] [])).frames = [frame [] []] ∧ (frame [] []).status = .running ∧
    (frame [] []).stack.length < requiredDepth Params.defaults .pop ∧ pushesOnly .push0 = true ∧
    requiredDepth Params.defaults .dup16 ≤ (frame [] (List.replicate 1024 0)).stack.length ∧
    Params.defaults.stackLimit ≤ (frame [] (List.replicate 1024 0)).stack.length ∧
    requiredDepth Params.defaults .call ≤ (frame [] [0xb0, 1, 0, 0, 0, 0]).stack.length ∧
    forbiddenWhenStatic Params.defaults [0xb0, 1, 0, 0, 0, 0] .call = true ∧
    forbiddenWhenStatic Params.defaults [0xb0, 0, 0, 0, 0, 0] .call = false ∧
    readsAbsent (running (frame [] [])) (frame [] []) .origin = true ∧
    readsAbsent (running (frame [] [0xb0, 1, 0, 0, 0, 0])) (frame [] [0xb0, 1, 0, 0, 0, 0]) .call = true := by
  decide +kernel

theorem witness_FailureChangesOnlyStatus : (frame [] []).status = .running ∧
    exec .pop (running (frame [] [])) = .next (running ((frame [] []).halt (.fail .stackUnderflow))) ∧
    (running ((frame [] []).halt (.fail .stackUnderflow))).frames = [(frame [] []).halt (.fail .stackUnderflow)] ∧
    ((frame [] []).halt (.fail .stackUnderflow)).status = .halted (.fail .stackUnderflow) := ⟨rfl, rfl, rfl, rfl⟩

/-- InstructionFrame and SharedStateFrame: a next state, and one in which the world, the marks, the nonces, the logs or
the return data differ. -/
theorem witness_instruction_frames :
    (∃ t, exec .sstore (running (ownFrame [] [1, 7])) = .next t ∧ t.world ≠ (running (ownFrame [] [1, 7])).world) ∧
    (∃ t, exec .log0 (running (ownFrame [] [0, 0])) = .next t ∧ t.logs ≠ (running (ownFrame [] [0, 0])).logs) ∧
    (∃ t, exec .selfdestruct (running (ownFrame [] [0])) = .next t ∧ t.destruct ≠ (running (ownFrame [] [0])).destruct) ∧
    (∃ t, exec .create (running (ownFrame [] [0, 0, 0])) = .next t ∧ t.nonce ≠ (running (ownFrame [] [0, 0, 0])).nonce) ∧
    ∃ t g, exec .call (running { ownFrame [] [0xc0, 0, 0, 0, 0, 0] with returndata := [1] }) = .next t ∧
      OwnFrame t.frames g [] ∧ g.returndata ≠ [1] :=
  ⟨⟨_, rfl, by decide +kernel⟩, ⟨_, rfl, by decide +kernel⟩, ⟨_, rfl, by decide +kernel⟩, ⟨_, rfl, by decide +kernel⟩,
    _, _, rfl, .inl rfl, by decide +kernel⟩

theorem witness_FailedChildIsUndone :
    (withChild (haltedChild (.revert [1]) (.call 4 2))).runStatus = .running ∧
    (withChild (haltedChild (.revert [1]) (.call 4 2))).frames = [haltedChild (.revert [1]) (.call 4 2), frame [] [5]] ∧
    (haltedChild (.revert [1]) (.call 4 2)).status = .halted (.revert [1]) ∧
    (∀ out, (HaltOutcome.revert [1]) ≠ .ret out) ∧
    (∃ t, step (withChild (haltedChild (.revert [1]) (.call 4 2))) = .next t) ∧
    (∃ t, step
        { withChild (haltedChild (.fail .unknownOpcode) (.create 0xcc 4)) with
          logs := [{ address := 0xaa, data := [], topics := [] }]
          params := { Params.defaults with logsRollBack := true } } = .next t ∧ t.logs = []) ∧
    (∃ t, step
        { withChild (haltedChild (.fail .unknownOpcode) (.create 0xcc 4)) with
          logs := [{ address := 0xaa, data := [], topics := [] }] } = .next t ∧ t.logs ≠ []) ∧
    ∀ outOff outSize : Word, ((haltedChild (.revert [1]) (.call 4 2)).kind = .call outOff outSize ∨
        (haltedChild (.revert [1]) (.call 4 2)).kind = .delegateCall outOff outSize ∨
        (haltedChild (.revert [1]) (.call 4 2)).kind = .staticCall outOff outSize) →
      6 < outOff.toNat ∨ outOff.toNat + outSize.toNat ≤ 6 :=
  ⟨rfl, rfl, rfl, fun out h => (by cases h), ⟨_, rfl⟩, ⟨_, rfl, rfl⟩, ⟨_, rfl, by decide +kernel⟩, fun a b h => (by
    rcases h with h | h | h <;> cases h
    decide)⟩

/-- Launch inputs with one account and a program. -/
def someInputs : LaunchInputs :=
  { code := [0x00], tx := TxContext.absent, block := BlockContext.absent, state := [(0xaa, { balance := some 5, code := none })] }

theorem witness_LaunchState : State.reset.runStatus ≠ .running ∧ (running (frame [] [])).runStatus = .running ∧
    InputsFit State.reset someInputs ∧
    ¬InputsFit { State.reset with params := { Params.defaults with lengthLimit := some 0 } } someInputs ∧
    (someInputs.state.map Prod.fst).Nodup ∧ ((0xaa : Addr), { balance := some 5, code := none }) ∈ someInputs.state ∧
    (0xbb : Addr) ∉ someInputs.state.map Prod.fst :=
  ⟨by decide, rfl, ⟨fun l hl => (by cases hl), fun l hl => (by cases hl), fun _ _ _ l hl => (by cases hl)⟩,
    fun h => absurd (h.1 0 rfl) (by decide), by decide +kernel, by decide +kernel, by decide +kernel⟩

theorem witness_LaunchMeetsInvariant : ∃ t, launch someInputs State.reset = some t ∧ t.frames ≠ [] := by
  refine ⟨_, rfl, by decide +kernel⟩

/-- A fresh frame meets the frame invariant. -/
theorem fresh_frame_inv {f : Frame} (hm : f.memory = Memory.empty) (hj : f.jumpdests = jumpdests f.code) (hp : f.pc = 0)
    (hs : f.stack.length ≤ 1024) (hd : f.depth ≤ 1024)
    (hn : f.snapshot = { world := [], destruct := [], logCount := 0 }) : FrameInv Params.defaults f :=
  ⟨hm ▸ empty_wf, hm ▸ rfl, hj, hp ▸ .start, hp ▸ Nat.zero_le _, hs, hd, hn ▸ ⟨.nil, fun _ h => (by cases h)⟩, hn ▸ .nil,
    rfl, rfl, rfl, rfl, fun _ _ => rfl, hn ▸ fun _ h => (by cases h)⟩

/-- A child of STATICCALL, running, at depth 1. -/
def staticChild : Frame := { frame [0x5b] [] with isStatic := true, depth := 1, kind := .staticCall 0 0 }

/-- What that child called, halted, at depth 2. -/
def grandchild : Frame :=
  { frame [] [] with isStatic := true, depth := 2, kind := .call 0 0, status := .halted (.ret []) }

/-- A running machine with the frames `fs`. -/
def stacked (fs : List Frame) : State := { State.reset with runStatus := .running, frames := fs }

/-- The invariant holds of a running machine with a top-level frame, with a static child above it, and with a halted
grandchild above that. -/
theorem witness_invariant : (stacked [frame [0x5b] [5]]).Inv ∧ (stacked [staticChild, frame [0x5b] [5]]).Inv ∧
    (stacked [grandchild, staticChild, frame [0x5b] [5]]).Inv := by
  have t : FrameInv Params.defaults (frame [0x5b] [5]) := fresh_frame_inv rfl rfl rfl (by decide) (by decide) rfl
  have c : FrameInv Params.defaults staticChild := fresh_frame_inv rfl rfl rfl (by decide) (by decide) rfl
  have g : FrameInv Params.defaults grandchild := fresh_frame_inv rfl rfl rfl (by decide) (by decide) rfl
  refine ⟨⟨?_, ⟨rfl, rfl, rfl⟩, by decide, by decide, ⟨.nil, fun _ h => (by cases h)⟩, .nil,
      ⟨.nil, fun _ h => (by cases h)⟩, fun _ h => (by cases h), fun _ h => (by cases h), ?_, fun _ h => (by cases h)⟩,
    ⟨?_, ⟨by decide, rfl, fun _ => rfl, fun _ _ h => (by cases h), rfl, by decide, rfl, rfl, rfl⟩, by decide, by decide,
      ⟨.nil, fun _ h => (by cases h)⟩, .nil, ⟨.nil, fun _ h => (by cases h)⟩, fun _ h => (by cases h),
      fun _ h => (by cases h), ?_, fun _ h => (by cases h)⟩,
    ⟨?_, ⟨by decide, rfl, fun _ => rfl, fun _ _ h => (by cases h), rfl, by decide, by decide, rfl, fun _ => rfl,
        fun _ _ h => (by cases h), rfl, by decide, rfl, rfl, rfl⟩, by decide, by decide,
      ⟨.nil, fun _ h => (by cases h)⟩, .nil, ⟨.nil, fun _ h => (by cases h)⟩, fun _ h => (by cases h),
      fun _ h => (by cases h), ?_, fun _ h => (by cases h)⟩⟩
  all_goals
    intro f hf
    simp only [stacked, List.mem_cons, List.not_mem_nil, or_false] at hf
    rcases hf with rfl | rfl | rfl <;> first | assumption | exact fun _ => rfl

/-- StepKeepsInvariant, StepNeverFaults, StaticFramesMutateNothing, FrameStackIsBounded: a step of a state that meets the
invariant, in its running static frame and in the return to it, and a frame with frames above and below. -/
theorem witness_invariant_steps :
    (∃ t, step (stacked [frame [0x5b] [5]]) = .next t) ∧ (stacked [staticChild, frame [0x5b] [5]]).runStatus = .running ∧
    (∃ t, step (stacked [staticChild, frame [0x5b] [5]]) = .next t) ∧ staticChild.isStatic = true ∧
    staticChild.status = .running ∧ (∃ t, step (stacked [grandchild, staticChild, frame [0x5b] [5]]) = .next t) ∧
    (stacked [grandchild, staticChild, frame [0x5b] [5]]).frames =
      [grandchild] ++ staticChild :: [frame [0x5b] [5]] :=
  ⟨⟨_, rfl⟩, rfl, ⟨_, rfl⟩, rfl, rfl, ⟨_, rfl⟩, rfl⟩

theorem witness_HostAndCore : (∃ t, step (running (frame [0x5b] [])) = .next t ∧
      t.runStatus = (running (frame [0x5b] [])).runStatus) ∧ State.reset.runStatus ≠ .running ∧
    (running (frame [0x5b] [])).runStatus = .running ∧
    (∃ t r, step (running (haltedChild (.ret [1]) .top)) = .next t ∧ t.runStatus = .done ∧ t.result = some r) ∧
    State.reset.runStatus ≠ .done := ⟨⟨_, rfl, rfl⟩, by decide, rfl, ⟨_, _, rfl, rfl, rfl⟩, by decide⟩

end Sys2Proof.Tests
end

section
/-!
PROOFS of the family spec/10_state.md. First the facts about fetched instructions and about the scan of the
code that the invariant needs (spec/30_encoding.md R101 to R109, spec/44_control.md R245).
-/

namespace Sys2Proof

theorem immWidth_le (op : Byte) : immWidth op ≤ 32 := by
  unfold immWidth; split <;> omega

/-- R103: a byte with `n` immediate bytes, `n` not 0, is 0x5f + n. -/
theorem opcode_of_immWidth {op : Byte} (h : immWidth op ≠ 0) : op = BitVec.ofNat 8 (0x5f + immWidth op) := by
  unfold immWidth at h ⊢
  split at h
  · rename_i hr
    rw [if_pos hr, Nat.add_sub_cancel' (by omega), BitVec.ofNat_toNat, BitVec.setWidth_eq]
  · exact absurd rfl h

theorem pushOf_opcode {n : Nat} {w : Word} {i : Instr} (h : pushOf n w = some i) :
    i.opcode = BitVec.ofNat 8 (0x5f + n) := by
  unfold pushOf at h
  split at h <;> cases h <;> rfl

/-- R104: the rows of the map and the encoder name the same bytes. -/
theorem opRows_opcode : ∀ row ∈ opRows, row.2.opcode = row.1 := by decide +kernel

/-- An opcode byte is read as an instruction with that opcode byte. -/
theorem decodeOp_opcode {op : Byte} {w : Word} {i : Instr} (h : decodeOp op w = some i) : i.opcode = op := by
  unfold decodeOp at h
  split at h
  · obtain ⟨row, hrow, rfl⟩ := Option.map_eq_some_iff.mp h
    rw [opRows_opcode row (List.mem_of_find?_eq_some hrow)]
    simpa using List.find?_some hrow
  · exact (pushOf_opcode h).trans (opcode_of_immWidth ‹_›).symm

/-- The byte at `pc` is the opcode byte of the instruction fetched there. -/
theorem getElem?_of_decode {code rest : Bytes} {pc : Nat} {i : Instr} (h : decode (code.drop pc) = .instr i rest) :
    code[pc]? = some i.opcode := by
  unfold decode at h
  split at h
  · cases h
  · rename_i op tl hd
    split at h
    · rename_i j hj
      cases h
      rw [decodeOp_opcode hj, ← List.head?_drop, hd, List.head?_cons]
    · cases h

namespace Machine

/-- R109: the offset past an instruction on a boundary is a boundary. -/
theorem Boundary.add_length {code : Bytes} {pc : Nat} {i : Instr} (h : Boundary code pc)
    (hop : code[pc]? = some i.opcode) :
    Boundary code (pc + i.length) := by
  rw [Instr.length, ← Nat.add_assoc]
  exact h.advance hop

/-- R30: the offset past an instruction that begins inside the code is at most `len(code) + 32`. -/
theorem pc_add_length_le {code : Bytes} {pc : Nat} {i : Instr} (hop : code[pc]? = some i.opcode) :
    pc + i.length ≤ code.length + 32 := by
  have := (List.getElem?_eq_some_iff.mp hop).1
  have := immWidth_le i.opcode
  unfold Instr.length
  omega

/-- R245: from offset `i`, with `skip` immediate bytes left before the next boundary, the scan finds 0x5b bytes on
boundaries only. -/
theorem mem_scanFrom {code bs : Bytes} {skip i t : Nat} (hbs : code.drop i = bs) (hb : Boundary code (i + skip))
    (ht : t ∈ scanFrom skip i bs) : Boundary code t ∧ code[t]? = some 0x5b := by
  induction bs generalizing skip i with
  | nil => simp [scanFrom] at ht
  | cons op rest ih =>
    have hrest : code.drop (i + 1) = rest := by rw [← List.tail_drop, hbs, List.tail_cons]
    have hop : code[i]? = some op := by rw [← List.head?_drop, hbs, List.head?_cons]
    cases skip with
    | succ k => exact ih hrest (by rwa [Nat.add_right_comm]) ht
    | zero =>
      have hnext := hb.advance hop
      unfold scanFrom at ht
      split at ht
      · rename_i h5b
        rcases List.mem_cons.mp ht with rfl | ht
        · exact ⟨hb, h5b ▸ hop⟩
        · exact ih hrest (by rw [h5b] at hnext; exact hnext) ht
      · exact ih hrest hnext ht

/-- R245: a jump target is a JUMPDEST byte on a boundary. -/
theorem mem_jumpdests {code : Bytes} {t : Nat} (ht : t ∈ jumpdests code) : Boundary code t ∧ code[t]? = some 0x5b :=
  mem_scanFrom rfl .start ht

end Machine
end Sys2Proof
end

section
/-!
What a step keeps of one frame (`FrameInv`) and of the frame list (`ChainInv`).
-/

namespace Sys2Proof.Machine

variable {s : State} {p : Params} {f g k : Frame} {fs above below : List Frame} {o : HaltOutcome}

/-! ## One frame -/

/-- R109, R30, R247: the pc after a completed instruction fetched at a boundary. -/
theorem FrameStep.pc_inv {i : Instr} (hs : FrameStep p i.length f g) (hf : FrameInv p f)
    (hop : f.code[f.pc]? = some i.opcode) (hfit : fitsPc p (f.pc + i.length) = true) :
    Boundary g.code g.pc ∧ g.pc ≤ g.code.length + 32 ∧ fitsPc p g.pc = true := by
  rw [hs.same.code]
  rcases hs.pc with hpc | ⟨⟨d, hd, hpc⟩, hw⟩
  · rw [hpc]
    exact ⟨hf.boundary.add_length hop, pc_add_length_le hop, hfit⟩
  · rw [hf.targets] at hd
    obtain ⟨hb, h5b⟩ := mem_jumpdests hd
    have hlt := (List.getElem?_eq_some_iff.mp h5b).1
    exact ⟨hpc ▸ hb.advance h5b, by omega, hw⟩

/-- A completed instruction of a running frame keeps the frame's invariant. -/
theorem FrameInv.step {i : Instr} (hf : FrameInv p f) (hrun : f.status = .running) (hs : FrameStep p i.length f g)
    (hop : f.code[f.pc]? = some i.opcode) (hfit : fitsPc p (f.pc + i.length) = true) : FrameInv p g := by
  obtain ⟨hb, hle, hw⟩ := hs.pc_inv hf hop hfit
  refine ⟨hs.memory hf.memory, hs.capacity hf.capacity, ?_, hb, hle, hs.stack hf.stack,
    ?_, ?_, ?_, hw, ?_, ?_, ?_, ?_, ?_⟩
  · rw [hs.same.jumpdests, hs.same.code]; exact hf.targets
  · rw [hs.same.depth]; exact hf.depth
  · rw [hs.same.snapshot]; exact hf.snapshotWorld
  · rw [hs.same.snapshot]; exact hf.snapshotDestruct
  · rw [hs.same.code]; exact hf.codeLength
  · rw [hs.same.calldata]; exact hf.calldataLength
  · rcases hs.returndata with hr | hr <;> rw [hr]
    · exact hf.returndataLength
    · exact fitsLength_zero p
  · intro o ho
    rcases hs.status with hq | ⟨out, hq | hq, hl⟩ <;> rw [hq] at ho
    · rw [hrun] at ho; cases ho
    · cases ho; exact hl
    · cases ho; exact hl
  · rw [hs.same.snapshot]; exact hf.snapshotCodes

/-- A halt with an output that the length registers hold keeps the frame's invariant. -/
theorem FrameInv.halt (hf : FrameInv p f) (ho : fitsLength p o.output.length = true) : FrameInv p (f.halt o) :=
  { hf with outputLength := fun o' h => by cases h; exact ho }

/-- R316, R317, R355: a suspended frame that receives a Word, return data and a memory keeps its invariant. -/
theorem FrameInv.resume {m : Memory} {w : Word} {out : Bytes} (hf : FrameInv p f) (hm : m.wf)
    (hc : fitsCapacity p m.size = true) (hout : fitsLength p out.length = true) (hst : f.stack.length < p.stackLimit) :
    FrameInv p { f with memory := m, returndata := out, stack := w :: f.stack } :=
  { hf with memory := hm, capacity := hc, returndataLength := hout, stack := hst }

/-- R306: a fresh child meets the frame invariant. -/
theorem ChildOf.frameInv (hk : ChildOf s f k) (h : s.Inv) : FrameInv s.params k where
  memory := hk.memory ▸ empty_wf
  capacity := hk.memory ▸ fitsLimit_zero _
  targets := hk.targets
  boundary := hk.pc ▸ .start
  pcBound := hk.pc ▸ Nat.zero_le _
  stack := hk.stack ▸ Nat.zero_le _
  depth := hk.limit
  snapshotWorld := hk.snapshot ▸ h.world
  snapshotDestruct := hk.snapshot ▸ h.destruct
  pcWidth := hk.pc ▸ fitsPc_zero _
  codeLength := hk.codeLength h.codes
  calldataLength := hk.calldataLength
  returndataLength := hk.returndata ▸ fitsLength_zero _
  outputLength := fun o ho => by rw [hk.status] at ho; cases ho
  snapshotCodes := hk.snapshot ▸ h.codes

theorem sameFrame_halt (f : Frame) (o : HaltOutcome) : SameFrame f (f.halt o) :=
  ⟨rfl, rfl, rfl, rfl, rfl, rfl, rfl, rfl, rfl, rfl⟩

theorem sameFrame_resume (f : Frame) (m : Memory) (out : Bytes) (st : List Word) :
    SameFrame f { f with memory := m, returndata := out, stack := st } :=
  ⟨rfl, rfl, rfl, rfl, rfl, rfl, rfl, rfl, rfl, rfl⟩

/-! ## The frame list -/

/-- The chain speaks of the depth, the static flag and the kind of the running frame alone. -/
theorem ChainInv.sameTop (h : ChainInv p (f :: fs)) (hs : SameFrame f g) : ChainInv p (g :: fs) := by
  cases fs with
  | nil =>
    obtain ⟨hk, hd, hst⟩ := h
    exact ⟨hs.kind.trans hk, hs.depth.trans hd, hs.isStatic.trans hst⟩
  | cons q rest =>
    obtain ⟨hk, hd, hst, hc, hrest⟩ := h
    unfold ChainInv
    rw [hs.kind, hs.depth, hs.isStatic]
    exact ⟨hk, hd, hst, hc, hrest⟩

theorem ChainInv.tail (h : ChainInv p (f :: fs)) : ChainInv p fs := by
  cases fs with
  | nil => trivial
  | cons q rest =>
    obtain ⟨-, -, -, -, -, -, hrest⟩ := h
    exact hrest

theorem ChainInv.suffix (h : ChainInv p (above ++ below)) : ChainInv p below := by
  induction above with
  | nil => exact h
  | cons a rest ih => exact ih h.tail

/-- R315: a frame above a static frame is static. -/
theorem ChainInv.static_above (h : ChainInv p (f :: fs)) (hg : g ∈ fs) (hs : g.isStatic = true) :
    f.isStatic = true := by
  induction fs generalizing f with
  | nil => cases hg
  | cons q rest ih =>
    obtain ⟨-, -, hst, -, -, -, hrest⟩ := h
    rcases List.mem_cons.mp hg with rfl | hg
    · exact hst hs
    · exact hst (ih hrest hg)

/-- R38: the depth of a frame is the number of frames under it. -/
theorem ChainInv.depth_eq (h : ChainInv p (f :: fs)) : f.depth = fs.length := by
  induction fs generalizing f with
  | nil =>
    obtain ⟨-, hd, -⟩ := h
    exact hd
  | cons q rest ih =>
    obtain ⟨-, hd, -, -, -, -, hrest⟩ := h
    rw [hd, ih hrest, List.length_cons]

/-- R306, R308: entering a child extends the chain. -/
theorem ChainInv.enter (h : ChainInv s.params (f :: fs)) (hk : ChildOf s f k) (hs : SameFrame f g)
    (hrun : g.status = .running) (hst : g.stack.length < s.params.stackLimit) : ChainInv s.params (k :: g :: fs) :=
  ⟨hk.kind, hs.depth ▸ hk.depth, hs.isStatic ▸ hk.isStatic, hk.created, hrun, hst, h.sameTop hs⟩

end Sys2Proof.Machine
end

section
/-!
What a step keeps of the whole state (`State.Inv`): one lemma for a state whose running frame is replaced, one for a
child entered, one for the end of a run; every step is one of these (`step_cases`, `exec_effect`).
-/

namespace Sys2Proof.Machine

variable {s s' t : State} {f g k p : Frame} {fs above : List Frame} {o : HaltOutcome} {snap : Snapshot}

/-- A counted fetch keeps the invariant. -/
theorem State.Inv.counted (h : s.Inv) (hc : countFetch s = some s') : s'.Inv := by
  rcases countFetch_some hc with ⟨-, rfl⟩ | ⟨limit, hlim, hle, rfl⟩
  · exact h
  · exact { h with steps := fun l hl => by rw [hlim] at hl; cases hl; exact hle }

/-- The frame list is cut down to the frame `f`, which `g` replaces, and the shared state may change, but not where `f`
is static (R361). -/
theorem State.Inv.replaced {w : World} {d : List Addr} {l : List Log} (h : s.Inv) (hf : s.frames = above ++ f :: fs)
    (same : SameFrame f g) (hg : FrameInv s.params g) (hw : worldWf w) (hc : codesFit s.params w) (hd : addrSetWf d)
    (hl : ∀ e ∈ l, e.topics.length ≤ 4 ∧ fitsLength s.params e.data.length = true)
    (hs : f.isStatic = true → { world := w, destruct := d, logCount := l.length : Snapshot } = snapshotOf s) :
    { s with frames := g :: fs, world := w, destruct := d, logs := l : State }.Inv := by
  have hmem : ∀ a ∈ f :: fs, a ∈ s.frames := fun a ha => hf ▸ List.mem_append_right above ha
  have hchain : ChainInv s.params (f :: fs) := ChainInv.suffix (hf ▸ h.chain)
  refine ⟨fun a ha => ?_, hchain.sameTop same, fun _ => List.cons_ne_nil g fs, h.done, hw, hd, h.nonce, hc, hl,
    fun a ha hst => ?_, h.steps⟩
  · rcases List.mem_cons.mp ha with rfl | ha
    · exact hg
    · exact h.frames a (hmem a (List.mem_cons_of_mem f ha))
  · rcases List.mem_cons.mp ha with rfl | ha
    · rw [same.isStatic] at hst
      exact same.snapshot.trans ((h.static f (hmem f List.mem_cons_self) hst).trans (hs hst).symm)
    · exact (h.static a (hmem a (List.mem_cons_of_mem f ha)) hst).trans (hs (hchain.static_above ha hst)).symm

/-- Only the running frame changes. -/
theorem State.Inv.setTop (h : s.Inv) (hf : s.frames = f :: fs) (same : SameFrame f g) (hg : FrameInv s.params g) :
    (s.setTop g).Inv := by
  rw [State.setTop, hf]
  exact h.replaced (above := []) hf same hg h.world h.codes h.destruct h.logs fun _ => rfl

/-- A child is entered; what the entry writes to the world is not for a static child (R361). -/
theorem State.Inv.entered {w : World} {n : SMap Nat} (h : s.Inv) (hf : s.frames = f :: fs) (hk : ChildOf s f k)
    (same : SameFrame f g) (hg : FrameInv s.params g) (hrun : g.status = .running)
    (hst : g.stack.length < s.params.stackLimit) (hw : worldWf w) (hc : codesFit s.params w) (hn : nonceWf n)
    (hs : k.isStatic = true → w = s.world) :
    { s with nonce := n, world := w, frames := k :: g :: fs : State }.Inv := by
  have hchain : ChainInv s.params (k :: g :: fs) := ChainInv.enter (hf ▸ h.chain) hk same hrun hst
  refine ⟨fun a ha => ?_, hchain, fun _ => List.cons_ne_nil _ _, h.done, hw, h.destruct, hn, hc, h.logs,
    fun a ha hsa => ?_, h.steps⟩
  · rcases List.mem_cons.mp ha with rfl | ha
    · exact hk.frameInv h
    · rcases List.mem_cons.mp ha with rfl | ha
      · exact hg
      · exact h.frames a (hf ▸ List.mem_cons_of_mem f ha)
  · have hsnap : a.snapshot = snapshotOf s := by
      rcases List.mem_cons.mp ha with rfl | ha
      · exact hk.snapshot
      · rcases List.mem_cons.mp ha with rfl | ha
        · exact same.snapshot.trans (h.static f (hf ▸ List.mem_cons_self) (same.isStatic ▸ hsa))
        · exact h.static a (hf ▸ List.mem_cons_of_mem f ha) hsa
    have hks : k.isStatic = true := by
      rcases List.mem_cons.mp ha with rfl | ha
      · exact hsa
      · exact hchain.static_above ha hsa
    rw [hsnap, hs hks]
    rfl

/-- The run is over. -/
theorem State.Inv.ended (h : s.Inv) (hf : t.frames = []) (hr : t.runStatus = .done) (hres : t.result ≠ none)
    (hp : t.params = s.params) (hst : t.steps = s.steps) (hn : t.nonce = s.nonce) (hw : worldWf t.world)
    (hd : addrSetWf t.destruct) (hc : codesFit s.params t.world) (hl : ∀ e ∈ t.logs, e ∈ s.logs) : t.Inv where
  frames := by rw [hf]; exact fun _ ha => absurd ha List.not_mem_nil
  chain := by rw [hf]; trivial
  running := by rw [hr]; exact fun hx => by cases hx
  done := fun _ => hres
  world := hw
  destruct := hd
  nonce := hn ▸ h.nonce
  codes := hp ▸ hc
  logs := fun e he => hp ▸ h.logs e (hl e he)
  static := by rw [hf]; exact fun _ ha => absurd ha List.not_mem_nil
  steps := by rw [hp, hst]; exact h.steps

/-- R50: a rollback leaves no log entry that was not there. -/
theorem mem_rollback_logs {e : Log} (he : e ∈ (rollback s snap).logs) : e ∈ s.logs := by
  rw [rollback_logs] at he
  split at he
  · exact List.mem_of_mem_take he
  · exact he

/-- R361: a rollback to the state as it stands changes nothing. -/
@[simp] theorem rollback_snapshotOf (s : State) : rollback s (snapshotOf s) = s := by
  simp [rollback, snapshotOf]

/-- R325: the end of a run keeps the invariant. -/
theorem State.Inv.finish (h : s.Inv) (hf : s.frames = [f]) : (finish s o f).Inv := by
  have hfi : FrameInv s.params f := h.frames f (hf ▸ List.mem_cons_self)
  cases o with
  | ret out =>
    exact h.ended rfl rfl nofun rfl rfl rfl (removeAll_wf h.world _) h.destruct
      (removeAll_codes h.codes _) fun _ he => he
  | revert out =>
    exact h.ended rfl rfl nofun rfl rfl rfl hfi.snapshotWorld hfi.snapshotDestruct hfi.snapshotCodes
      fun _ he => mem_rollback_logs he
  | fail kind =>
    exact h.ended rfl rfl nofun rfl rfl rfl hfi.snapshotWorld hfi.snapshotDestruct hfi.snapshotCodes
      fun _ he => mem_rollback_logs he

/-! ## The return transition -/

/-- R316, R321: the parent resumes after a child that did not succeed. -/
theorem State.Inv.rolledBack (h : s.Inv) (hf : s.frames = k :: p :: fs) (same : SameFrame p g)
    (hg : FrameInv s.params g) : { rollback s k.snapshot with frames := g :: fs : State }.Inv := by
  have hk : FrameInv s.params k := h.frames k (hf ▸ List.mem_cons_self)
  have hchain : ChainInv s.params (k :: p :: fs) := hf ▸ h.chain
  refine h.replaced (above := [k]) hf same hg hk.snapshotWorld hk.snapshotCodes hk.snapshotDestruct
    (fun e he => h.logs e (mem_rollback_logs he)) fun hp => ?_
  have hsnap := h.static k (hf ▸ List.mem_cons_self) (hchain.static_above List.mem_cons_self hp)
  show snapshotOf (rollback s k.snapshot) = snapshotOf s
  rw [hsnap, rollback_snapshotOf]

/-- R316: the parent resumes after a child of a call, whatever its outcome. -/
theorem State.Inv.settled (h : s.Inv) (hf : s.frames = k :: p :: fs) (same : SameFrame p g)
    (hg : FrameInv s.params g) : { settle s o k.snapshot with frames := g :: fs : State }.Inv := by
  cases o with
  | ret out => exact h.replaced (above := [k]) hf same hg h.world h.codes h.destruct h.logs fun _ => rfl
  | revert out => exact h.rolledBack hf same hg
  | fail kind => exact h.rolledBack hf same hg

/-- R316, R317: the return of a call's child keeps the invariant. -/
theorem State.Inv.callReturn {outOff outSize : Word} (h : s.Inv) (hf : s.frames = k :: p :: fs)
    (ho : k.status = .halted o) (hx : callReturn s o k.snapshot outOff outSize p fs = .next t) : t.Inv := by
  obtain ⟨-, hcap, rfl⟩ := callReturn_next hx
  have hp : FrameInv s.params p := h.frames p (hf ▸ by simp)
  have hk : FrameInv s.params k := h.frames k (hf ▸ List.mem_cons_self)
  have hchain : ChainInv s.params (k :: p :: fs) := hf ▸ h.chain
  obtain ⟨-, -, -, -, -, hroom, -⟩ := hchain
  exact h.settled hf (sameFrame_resume p _ _ _)
    (hp.resume (grow_store_wf hp.memory s.params _ _ _ (padRead_length ..)) (by rw [store_size]; exact hcap)
      (hk.outputLength o ho) hroom)

/-- R321: the return of a CREATE's child keeps the invariant: no static frame makes one (R37). -/
theorem State.Inv.createReturn {N : Addr} {v : Word} (h : s.Inv) (hf : s.frames = k :: p :: fs)
    (ho : k.status = .halted o) (hkind : k.kind = .create N v)
    (hx : createReturn s o k.snapshot N v p fs = .next t) : t.Inv := by
  have hp : FrameInv s.params p := h.frames p (hf ▸ by simp)
  have hk : FrameInv s.params k := h.frames k (hf ▸ List.mem_cons_self)
  have hout := hk.outputLength o ho
  have hchain : ChainInv s.params (k :: p :: fs) := hf ▸ h.chain
  obtain ⟨-, -, hstatic, hcreated, -, hroom, -⟩ := hchain
  cases o with
  | ret out =>
    cases hx
    refine h.replaced (above := [k]) hf (sameFrame_resume p p.memory _ _)
      (hp.resume hp.memory hp.capacity (fitsLength_zero _) hroom)
      (deploy_wf h.world ..) (deploy_codes h.codes N v hout) h.destruct h.logs fun hps => ?_
    rw [hcreated N v hkind] at hstatic
    exact absurd (hstatic hps) (by decide)
  | revert out =>
    cases hx
    exact h.rolledBack hf (sameFrame_resume p p.memory _ _) (hp.resume hp.memory hp.capacity hout hroom)
  | fail kind =>
    cases hx
    exact h.rolledBack hf (sameFrame_resume p p.memory _ _) (hp.resume hp.memory hp.capacity (fitsLength_zero _) hroom)

/-! ## The instructions and the step -/

/-- R350: a raised failure keeps the invariant. -/
theorem State.Inv.failed (h : s.Inv) (hf : s.frames = f :: fs) (kind : FailureKind) : (failed s f kind).Inv :=
  h.setTop hf (sameFrame_halt f _) ((h.frames f (hf ▸ List.mem_cons_self)).halt (fitsLength_zero _))

/-- R240: an instruction fetched at the running frame's pc keeps the invariant. -/
theorem State.Inv.exec {i : Instr} (h : s.Inv) (hf : s.frames = f :: fs) (hrun : f.status = .running)
    (hop : f.code[f.pc]? = some i.opcode) (hfit : fitsPc s.params (f.pc + i.length) = true)
    (hx : exec i s = .next t) : t.Inv := by
  have hfi : FrameInv s.params f := h.frames f (hf ▸ List.mem_cons_self)
  cases exec_effect hf hx with
  | failed kind => exact h.failed hf kind
  | moved g hg => exact h.setTop hf hg.same (hfi.step hrun hg hop hfit)
  | mutated g w d new hns hg hw hc hd hl =>
    rw [State.setTop, hf]
    refine h.replaced (above := []) hf hg.same (hfi.step hrun hg hop hfit) (hw h.world) (hc h.codes) (hd h.destruct)
      (fun e he => (List.mem_append.mp he).elim (h.logs e) (hl e)) fun hs => ?_
    rw [hns] at hs
    cases hs
  | entered k g w n hg hst hlen hk hw hc hs hn _ =>
    rw [hf]
    exact h.entered hf hk hg.same (hfi.step hrun hg hop hfit) (hst.trans hrun) (Nat.lt_of_lt_of_le hlen hfi.stack)
      (hw h.world) (hc h.codes) (hn h.nonce) hs

/-- Settles O56, by the cases of a step. -/
theorem stepKeepsInvariant : Obligations.StepKeepsInvariant := by
  unfold Obligations.StepKeepsInvariant
  intro s t h hx
  cases step_cases hx with
  | stutter _ ht => exact ht ▸ h
  | endOfCode f fs _ hf _ _ ht =>
    rw [ht]
    exact h.setTop hf (sameFrame_halt f _) ((h.frames f (hf ▸ List.mem_cons_self)).halt (fitsLength_zero _))
  | unknown f fs op s' _ hf _ _ hc ht =>
    rw [ht]
    exact (h.counted hc).failed ((countFetch_frames hc).trans hf) _
  | executed f fs i rest s' _ hf hrun hd hc hfit hx =>
    exact (h.counted hc).exec ((countFetch_frames hc).trans hf) hrun (getElem?_of_decode hd) hfit hx
  | returned k p fs o _ hf ho hx =>
    rcases returnTransition_next hx with ⟨_, _, _, hx⟩ | ⟨N, v, hkind, hx⟩
    · exact h.callReturn hf ho hx
    · exact h.createReturn hf ho hkind hx
  | ended f o _ hf _ ht => exact ht ▸ h.finish hf

end Sys2Proof.Machine
end

section
/-!
The invariant right after reset, the state after reset, and the bound on the frame stack.
-/

namespace Sys2Proof.Machine

/-- R59: a state with no frame, no account and no log entry meets the invariant. -/
theorem reset_inv : State.reset.Inv where
  frames := fun _ h => absurd h List.not_mem_nil
  chain := trivial
  running := fun h => by cases h
  done := fun h => by cases h
  world := ⟨.nil, fun _ h => absurd h List.not_mem_nil⟩
  destruct := .nil
  nonce := ⟨.nil, fun _ h => absurd h List.not_mem_nil⟩
  codes := fun _ h => absurd h List.not_mem_nil
  logs := fun _ h => absurd h List.not_mem_nil
  static := fun _ h => absurd h List.not_mem_nil
  steps := fun _ _ => Nat.zero_le _

/-- Settles O52: every clause is about lists that are empty or bounds that are absent. -/
theorem resetMeetsInvariant : Obligations.ResetMeetsInvariant := reset_inv

/-- Settles O53, by the definitions of the two states. -/
theorem resetState : Obligations.ResetState := ⟨rfl, fun _ => rfl⟩

/-- Settles O59: the depth of each frame is the number of frames under it, and the running frame's depth is within the
limit. -/
theorem frameStackIsBounded : Obligations.FrameStackIsBounded := by
  unfold Obligations.FrameStackIsBounded
  intro s h
  constructor
  · cases hf : s.frames with
    | nil => exact Nat.zero_le _
    | cons f fs =>
      have hdepth : f.depth = fs.length := ChainInv.depth_eq (hf ▸ h.chain)
      have hlimit := (h.frames f (hf ▸ List.mem_cons_self)).depth
      rw [List.length_cons]
      omega
  · intro above below f hf
    exact ChainInv.depth_eq (ChainInv.suffix (hf ▸ h.chain))

end Sys2Proof.Machine
end

section
/-!
Reads after writes to the world (spec/10_state.md R44 to R48) and the value transfer (spec/47_call_create.md R312).
-/

namespace Sys2Proof.Machine

/-- R46: the balances after a credit. -/
theorem balanceOf_credit (w : World) (A B : Addr) (n : Word) :
    balanceOf (credit w A n) B = if B = A then balanceOf w A + n else balanceOf w B := balanceOf_setBalance ..

/-- R46: the balances after a debit. -/
theorem balanceOf_debit (w : World) (A B : Addr) (n : Word) :
    balanceOf (debit w A n) B = if B = A then balanceOf w A - n else balanceOf w B := balanceOf_setBalance ..

theorem codeOf_transferred (w : World) (A T B : Addr) (v : Word) : codeOf (credit (debit w A v) T v) B = codeOf w B :=
  (codeOf_setBalance ..).trans (codeOf_setBalance ..)

theorem storageAt_transferred (w : World) (A T B : Addr) (v k : Word) :
    storageAt (credit (debit w A v) T v) B k = storageAt w B k :=
  (storageAt_setBalance ..).trans (storageAt_setBalance ..)

/-- R46: Word addition is the sum of the naturals modulo 2^256. -/
theorem word_add_eq (a b : Word) : a + b = BitVec.ofNat 256 ((a.toNat + b.toNat) % 2 ^ 256) :=
  BitVec.eq_of_toNat_eq (by simp [BitVec.toNat_add])

/-- R46: Word subtraction adds the complement to 2^256. -/
theorem word_sub_eq (a b : Word) : a - b = BitVec.ofNat 256 ((a.toNat + (2 ^ 256 - b.toNat)) % 2 ^ 256) :=
  BitVec.eq_of_toNat_eq (by simp [BitVec.toNat_sub, Nat.add_comm])

/-- R44: an address with no account reads as the account of zeros. -/
theorem accountAt_of_absent {w : World} {A : Addr} (h : mapGet w A.toNat = none) : accountAt w A = Account.zero := by
  rw [accountAt, mapRead, h]; rfl

/-- Settles O33, from the laws of the world's operations. -/
theorem worldWritesReadBack : Obligations.WorldWritesReadBack := by
  unfold Obligations.WorldWritesReadBack
  refine ⟨accountAt_putAccount, fun w A B k j v => ?_, fun w A B n => ⟨?_, ?_⟩, fun m A B n => ?_, fun w A k h => ?_⟩
  · exact ⟨storageAt_sstore .., balanceOf_sstore .., codeOf_sstore .., fun hw => sstore_wf hw ..⟩
  · rw [balanceOf_credit, word_add_eq]
  · rw [balanceOf_debit, word_sub_eq]
  · simp only [mapRead_mapWrite, toNat_inj_addr]
  · rw [balanceOf, codeOf, storageAt, accountAt_of_absent h]
    exact ⟨rfl, rfl, rfl⟩

/-- Settles O34, by cases on whether the payer is the target and on the account that is read. -/
theorem transferMovesValue : Obligations.TransferMovesValue := by
  unfold Obligations.TransferMovesValue
  intro w A T B v _
  refine ⟨?_, codeOf_transferred .., storageAt_transferred w A T B v⟩
  rw [balanceOf_credit, balanceOf_debit, balanceOf_debit]
  by_cases hAT : A = T
  · subst hAT
    by_cases hB : B = A
    · simp [hB]
    · simp [hB]
  · by_cases hB : B = A
    · simp [hB, hAT]
    · simp [hB, hAT, Ne.symm hAT]

end Sys2Proof.Machine
end

section
/-!
What no instruction changes (R27, R53, R88, R280), and which instructions can change the shared state (R43 to R49).
-/

namespace Sys2Proof.Machine

open Sys2Proof.Rules

variable {s t : State} {f g g' : Frame} {fs : List Frame} {i : Instr} {len : Nat}

/-! ## The frame of every instruction -/

/-- R27, R280, R71: after an instruction its own frame stands where it stood, or under the child it made, its fixed
fields as they were. -/
theorem Effect.own_frame (h : Effect len s f t) (hf : s.frames = f :: fs) :
    ∃ g, OwnFrame t.frames g fs ∧ SameFrame f g ∧ f.memory.size ≤ g.memory.size := by
  have htail : s.frames.tail = fs := by rw [hf, List.tail_cons]
  subst htail
  cases h with
  | failed k => exact ⟨_, .inl rfl, sameFrame_halt f _, Nat.le_refl _⟩
  | moved g hg => exact ⟨g, .inl rfl, hg.same, hg.size⟩
  | mutated g w d new _ hg => exact ⟨g, .inl rfl, hg.same, hg.size⟩
  | entered k g w n hg => exact ⟨g, .inr ⟨k, rfl⟩, hg.same, hg.size⟩

/-- R49: logs are only appended to. -/
theorem Effect.logs_append (h : Effect len s f t) : ∃ new, t.logs = s.logs ++ new := by
  cases h with
  | mutated g w d new => exact ⟨new, rfl⟩
  | failed | moved | entered => exact ⟨[], (List.append_nil _).symm⟩

/-- R48: nonces are only counted up. -/
theorem Effect.nonce_le (h : Effect len s f t) (A : Addr) : nonceOf s A ≤ nonceOf t A := by
  cases h with
  | entered k g w n _ _ _ _ _ _ _ _ hle => exact hle A.toNat
  | failed | moved | mutated => exact Nat.le_refl _

/-- Settles O49, by the cases of an instruction's effect. -/
theorem instructionFrame : Obligations.InstructionFrame := by
  unfold Obligations.InstructionFrame
  intro i s t f fs hf hx
  have heff := exec_effect hf hx
  obtain ⟨g, hown, same, hsize⟩ := heff.own_frame hf
  cases heff <;>
    exact ⟨rfl, rfl, rfl, rfl, rfl, rfl, rfl, rfl, g, hown, same.code, same.jumpdests, same.address, same.caller,
      same.value, same.calldata, same.isStatic, same.depth, same.snapshot, same.kind, hsize⟩

/-! ## What each instruction can write -/

/-- What of the shared state an instruction that answers a next state can have written; where it makes no child, its
frame's return data stand unless it is a call or a creation. -/
inductive Writes (s : State) (f : Frame) : Instr → State → Prop where
  /-- nothing but the running frame -/
  | frame (i : Instr) (g : Frame) : g.returndata = f.returndata → Writes s f i (s.setTop g)
  /-- R291 -/
  | sstore (g : Frame) (w : World) : g.returndata = f.returndata → Writes s f .sstore { s.setTop g with world := w }
  /-- R292 -/
  | log (i : Instr) (g : Frame) (l : List Log) :
      i = .log0 ∨ i = .log1 ∨ i = .log2 ∨ i = .log3 ∨ i = .log4 → g.returndata = f.returndata →
      Writes s f i { s.setTop g with logs := l }
  /-- R318 -/
  | call (w : World) (frames : List Frame) : Writes s f .call { s with world := w, frames := frames }
  /-- R319, R320: no value moves -/
  | callNoValue (i : Instr) (frames : List Frame) : i = .delegatecall ∨ i = .staticcall →
      Writes s f i { s with frames := frames }
  /-- R321 -/
  | create (n : SMap Nat) (w : World) (frames : List Frame) :
      Writes s f .create { s with nonce := n, world := w, frames := frames }
  /-- R324 -/
  | selfdestruct (g : Frame) (w : World) (d : List Addr) : g.returndata = f.returndata →
      Writes s f .selfdestruct { s.setTop g with world := w, destruct := d }

/-- R350: a failure writes the status of the running frame. -/
theorem raise_writes {k : FailureKind} (hx : raise s f k = .next t) : Writes s f i t := by
  cases hx; exact .frame i _ rfl

/-- A memory access that goes on to change the running frame alone. -/
theorem withGrown_writes {off n : Nat} {after : Memory → Frame}
    (hx : withGrown s f off n (fun m => .next (s.setTop (after m))) = .next t)
    (hr : ∀ m, (after m).returndata = f.returndata) : Writes s f i t := by
  obtain ⟨-, -, hx⟩ := withGrown_next hx
  cases hx
  exact .frame i _ (hr _)

theorem plainOp_writes (h : s.frames = f :: fs) (hx : plainOp s = .next t) : Writes s f i t := by
  rw [plainOp, onTop_of_frames h] at hx
  cases hx
  exact .frame i _ rfl

theorem unaryOp_writes {g} (h : s.frames = f :: fs) (hx : unaryOp g s = .next t) : Writes s f i t := by
  rw [unaryOp, onTop_of_frames h] at hx
  split at hx
  · cases hx; exact .frame i _ rfl
  · exact raise_writes hx

theorem binaryOp_writes {g} (h : s.frames = f :: fs) (hx : binaryOp g s = .next t) : Writes s f i t := by
  rw [binaryOp, onTop_of_frames h] at hx
  split at hx
  · cases hx; exact .frame i _ rfl
  · exact raise_writes hx

theorem ternaryOp_writes {g} (h : s.frames = f :: fs) (hx : ternaryOp g s = .next t) : Writes s f i t := by
  rw [ternaryOp, onTop_of_frames h] at hx
  split at hx
  · cases hx; exact .frame i _ rfl
  · exact raise_writes hx

theorem pushOp_writes {v} (h : s.frames = f :: fs) (hx : pushOp len v s = .next t) : Writes s f i t := by
  rw [pushOp, onTop_of_frames h] at hx
  split at hx
  · split at hx
    · cases hx; exact .frame i _ rfl
    · exact raise_writes hx
  · exact raise_writes hx

theorem popOp_writes (h : s.frames = f :: fs) (hx : popOp s = .next t) : Writes s f i t := by
  rw [popOp, onTop_of_frames h] at hx
  split at hx
  · cases hx; exact .frame i _ rfl
  · exact raise_writes hx

theorem dupOp_writes {n} (h : s.frames = f :: fs) (hx : dupOp n s = .next t) : Writes s f i t := by
  rw [dupOp, onTop_of_frames h] at hx
  split at hx
  · split at hx
    · cases hx; exact .frame i _ rfl
    · exact raise_writes hx
  · exact raise_writes hx

theorem swapOp_writes {n} (h : s.frames = f :: fs) (hx : swapOp n s = .next t) : Writes s f i t := by
  rw [swapOp, onTop_of_frames h] at hx
  split at hx
  · split at hx
    · cases hx; exact .frame i _ rfl
    · exact raise_writes hx
  · exact raise_writes hx

theorem copyOp_writes {buf ok} (h : s.frames = f :: fs) (hx : copyOp buf ok s = .next t) : Writes s f i t := by
  rw [copyOp, onTop_of_frames h] at hx
  split at hx
  · split at hx
    · exact withGrown_writes hx fun _ => rfl
    · exact raise_writes hx
  · exact raise_writes hx

theorem haltWithOutput_writes {oc} (h : s.frames = f :: fs) (hx : haltWithOutput oc s = .next t) : Writes s f i t := by
  rw [haltWithOutput, onTop_of_frames h] at hx
  split at hx
  · exact withGrown_writes hx fun _ => rfl
  · exact raise_writes hx

theorem jumpTo_writes {a : Word} {st : List Word} (hx : jumpTo s f a st = .next t) : Writes s f i t := by
  unfold jumpTo at hx
  split at hx
  · split at hx
    · cases hx; exact .frame i _ rfl
    · cases hx
  · exact raise_writes hx

theorem execStop_writes (h : s.frames = f :: fs) (hx : execStop s = .next t) : Writes s f i t := by
  rw [execStop, onTop_of_frames h] at hx
  cases hx
  exact .frame i _ rfl

theorem execJump_writes (h : s.frames = f :: fs) (hx : execJump s = .next t) : Writes s f i t := by
  rw [execJump, onTop_of_frames h] at hx
  split at hx
  · exact jumpTo_writes hx
  · exact raise_writes hx

theorem execJumpi_writes (h : s.frames = f :: fs) (hx : execJumpi s = .next t) : Writes s f i t := by
  rw [execJumpi, onTop_of_frames h] at hx
  split at hx
  · split at hx
    · exact jumpTo_writes hx
    · cases hx; exact .frame i _ rfl
  · exact raise_writes hx

theorem execMload_writes (h : s.frames = f :: fs) (hx : execMload s = .next t) : Writes s f i t := by
  rw [execMload, onTop_of_frames h] at hx
  split at hx
  · exact withGrown_writes hx fun _ => rfl
  · exact raise_writes hx

theorem execSha3_writes (h : s.frames = f :: fs) (hx : execSha3 s = .next t) : Writes s f i t := by
  rw [execSha3, onTop_of_frames h] at hx
  split at hx
  · exact withGrown_writes hx fun _ => rfl
  · exact raise_writes hx

theorem execMstore_writes (h : s.frames = f :: fs) (hx : execMstore s = .next t) : Writes s f i t := by
  rw [execMstore, onTop_of_frames h] at hx
  split at hx
  · exact withGrown_writes hx fun _ => rfl
  · exact raise_writes hx

theorem execMstore8_writes (h : s.frames = f :: fs) (hx : execMstore8 s = .next t) : Writes s f i t := by
  rw [execMstore8, onTop_of_frames h] at hx
  split at hx
  · exact withGrown_writes hx fun _ => rfl
  · exact raise_writes hx

theorem execExtcodecopy_writes (h : s.frames = f :: fs) (hx : execExtcodecopy s = .next t) : Writes s f i t := by
  rw [execExtcodecopy, onTop_of_frames h] at hx
  split at hx
  · exact withGrown_writes hx fun _ => rfl
  · exact raise_writes hx

theorem execSload_writes (h : s.frames = f :: fs) (hx : execSload s = .next t) : Writes s f i t := by
  rw [execSload, onTop_of_frames h] at hx
  split at hx
  · split at hx
    · cases hx; exact .frame i _ rfl
    · exact raise_writes hx
  · exact raise_writes hx

theorem execSstore_writes (h : s.frames = f :: fs) (hx : execSstore s = .next t) : Writes s f .sstore t := by
  rw [execSstore, onTop_of_frames h] at hx
  split at hx
  · split at hx
    · exact raise_writes hx
    · split at hx
      · cases hx; exact .sstore _ _ rfl
      · exact raise_writes hx
  · exact raise_writes hx

theorem logOp_writes {n : Nat} (hi : i = .log0 ∨ i = .log1 ∨ i = .log2 ∨ i = .log3 ∨ i = .log4)
    (h : s.frames = f :: fs) (hx : logOp n s = .next t) : Writes s f i t := by
  rw [logOp, onTop_of_frames h] at hx
  split at hx
  · split at hx
    · exact raise_writes hx
    · split at hx
      · exact raise_writes hx
      · split at hx
        · obtain ⟨-, -, hx⟩ := withGrown_next hx
          cases hx; exact .log i _ _ hi rfl
        · exact raise_writes hx
  · exact raise_writes hx

/-- R313, R314: a call that passed its first checks writes frames, and the world where it moves a value. -/
theorem callOp_next {c : CallOperands} {child : ChildContext} (hx : callOp s f c child = .next t) :
    ∃ w frames, t = { s with world := w, frames := frames } ∧ (c.value = 0 → w = s.world) := by
  unfold callOp at hx
  split at hx
  · cases hx; exact ⟨s.world, _, rfl, fun _ => rfl⟩
  · obtain ⟨-, -, hx⟩ := withGrown_next hx
    cases hx; exact ⟨_, _, rfl, fun hv => by rw [hv, transfer_zero]⟩

theorem execCall_writes (h : s.frames = f :: fs) (hx : execCall s = .next t) : Writes s f .call t := by
  rw [execCall, onTop_of_frames h] at hx
  split at hx
  · exact raise_writes hx
  · split at hx
    · exact raise_writes hx
    · split at hx
      · exact raise_writes hx
      · obtain ⟨w, frames, rfl, -⟩ := callOp_next hx
        exact .call w frames

/-- R319, R320: a call without a value writes frames only. -/
theorem callOp_writes {c : CallOperands} {child : ChildContext} (hi : i = .delegatecall ∨ i = .staticcall)
    (hc : popCallNoValue s.params.callHasGasOperand f.stack = some c) (hx : callOp s f c child = .next t) :
    Writes s f i t := by
  obtain ⟨w, frames, rfl, hw⟩ := callOp_next hx
  rw [hw (popCallNoValue_rest hc).2]
  exact .callNoValue i frames hi

theorem execDelegatecall_writes (h : s.frames = f :: fs) (hx : execDelegatecall s = .next t) :
    Writes s f .delegatecall t := by
  rw [execDelegatecall, onTop_of_frames h] at hx
  split at hx
  · exact raise_writes hx
  · exact callOp_writes (.inl rfl) ‹_› hx

theorem execStaticcall_writes (h : s.frames = f :: fs) (hx : execStaticcall s = .next t) :
    Writes s f .staticcall t := by
  rw [execStaticcall, onTop_of_frames h] at hx
  split at hx
  · exact raise_writes hx
  · exact callOp_writes (.inr rfl) ‹_› hx

theorem execCreate_writes (h : s.frames = f :: fs) (hx : execCreate s = .next t) : Writes s f .create t := by
  rw [execCreate, onTop_of_frames h] at hx
  split at hx
  · split at hx
    · exact raise_writes hx
    · split at hx
      · exact raise_writes hx
      · split at hx
        · cases hx; exact .create s.nonce s.world _
        · obtain ⟨-, -, hx⟩ := withGrown_next hx
          cases hx; exact .create _ _ _
  · exact raise_writes hx

theorem execSelfdestruct_writes (h : s.frames = f :: fs) (hx : execSelfdestruct s = .next t) :
    Writes s f .selfdestruct t := by
  rw [execSelfdestruct, onTop_of_frames h] at hx
  split at hx
  · split at hx
    · exact raise_writes hx
    · split at hx
      · exact raise_writes hx
      · cases hx; exact .selfdestruct _ _ _ rfl
  · exact raise_writes hx

/-- Every instruction that answers a next state writes no more than `Writes` says. -/
theorem exec_writes (h : s.frames = f :: fs) (hx : exec i s = .next t) : Writes s f i t := by
  cases i with
  | add | mul | sub | div | sdiv | mod | smod | exp | signextend | lt | gt | slt | sgt | eq | and | or | xor | byte
  | shl | shr | sar => exact binaryOp_writes h hx
  | addmod | mulmod => exact ternaryOp_writes h hx
  | iszero | not | balance | calldataload | extcodesize | extcodehash => exact unaryOp_writes h hx
  | dup1 | dup2 | dup3 | dup4 | dup5 | dup6 | dup7 | dup8 | dup9 | dup10 | dup11 | dup12 | dup13 | dup14 | dup15
  | dup16 => exact dupOp_writes h hx
  | swap1 | swap2 | swap3 | swap4 | swap5 | swap6 | swap7 | swap8 | swap9 | swap10 | swap11 | swap12 | swap13
  | swap14 | swap15 | swap16 => exact swapOp_writes h hx
  | address | origin | caller | callvalue | calldatasize | codesize | gasprice | returndatasize | coinbase | timestamp
  | number | difficulty | gaslimit | chainid | selfbalance | basefee | pc | msize | push0 | push1 | push2 | push3
  | push4 | push5 | push6 | push7 | push8 | push9 | push10 | push11 | push12 | push13 | push14 | push15 | push16
  | push17 | push18 | push19 | push20 | push21 | push22 | push23 | push24 | push25 | push26 | push27 | push28 | push29
  | push30 | push31 | push32 =>
    unfold exec at hx
    exact pushOp_writes h hx
  | calldatacopy | codecopy | returndatacopy =>
    unfold exec at hx
    exact copyOp_writes h hx
  | ret | revert => exact haltWithOutput_writes h hx
  | log0 | log1 | log2 | log3 | log4 => exact logOp_writes (by decide) h hx
  | stop => exact execStop_writes h hx
  | sha3 => exact execSha3_writes h hx
  | extcodecopy => exact execExtcodecopy_writes h hx
  | pop => exact popOp_writes h hx
  | mload => exact execMload_writes h hx
  | mstore => exact execMstore_writes h hx
  | mstore8 => exact execMstore8_writes h hx
  | sload => exact execSload_writes h hx
  | sstore => exact execSstore_writes h hx
  | jump => exact execJump_writes h hx
  | jumpi => exact execJumpi_writes h hx
  | jumpdest => exact plainOp_writes h hx
  | create => exact execCreate_writes h hx
  | call => exact execCall_writes h hx
  | delegatecall => exact execDelegatecall_writes h hx
  | staticcall => exact execStaticcall_writes h hx
  | selfdestruct => exact execSelfdestruct_writes h hx

/-- A frame that stands on the unchanged frames is the one frame there is above them. -/
theorem ownFrame_setTop (hf : s.frames = f :: fs) (h : OwnFrame (s.setTop g).frames g' fs) : g' = g := by
  rw [setTop_frames, hf, List.tail_cons] at h
  rcases h with h | ⟨k, h⟩
  · exact (List.cons.inj h).1.symm
  · exact absurd (List.cons.inj h).2.symm (List.cons_ne_self g' fs)

/-- Settles O50, by the cases of what an instruction can write. -/
theorem sharedStateFrame : Obligations.SharedStateFrame := by
  unfold Obligations.SharedStateFrame
  intro i s t f fs hf hx
  have heff := exec_effect hf hx
  have hlogs := heff.logs_append
  have hnonce := heff.nonce_le
  have kept : ∀ {α : Type} {a : α} {P : Prop}, a ≠ a → P := fun h => absurd rfl h
  have own : ∀ {g g' : Frame} {P : Prop}, g.returndata = f.returndata → OwnFrame (s.setTop g).frames g' fs →
      g'.returndata ≠ f.returndata → P := fun hg h hne => absurd (ownFrame_setTop hf h ▸ hg) hne
  cases exec_writes hf hx with
  | frame _ g hg => exact ⟨kept, kept, kept, kept, hlogs, hnonce, fun _ => own hg⟩
  | sstore g w hg => exact ⟨fun _ => .inl rfl, kept, kept, kept, hlogs, hnonce, fun _ => own hg⟩
  | log _ g l hi hg => exact ⟨kept, kept, kept, fun _ => hi, hlogs, hnonce, fun _ => own hg⟩
  | call w frames => exact ⟨fun _ => .inr (.inl rfl), kept, kept, kept, hlogs, hnonce, fun _ _ _ => .inl rfl⟩
  | callNoValue _ frames hi =>
    exact ⟨kept, kept, kept, kept, hlogs, hnonce, fun _ _ _ => .inr (hi.imp_right .inl)⟩
  | create n w frames =>
    exact ⟨fun _ => .inr (.inr (.inl rfl)), kept, fun _ => rfl, kept, hlogs, hnonce,
      fun _ _ _ => .inr (.inr (.inr rfl))⟩
  | selfdestruct g w d hg =>
    exact ⟨fun _ => .inr (.inr (.inr rfl)), fun _ => rfl, kept, kept, hlogs, hnonce, fun _ => own hg⟩

end Sys2Proof.Machine
end

section
/-!
The launch (spec/70_reset_and_hazards.md R386, R387): what LOAD tests, and the world it builds.
-/

namespace Sys2Proof.Machine

open Sys2Proof.Rules

variable {inputs : LaunchInputs} {s : State}

/-- R393: LOAD tests the length of every byte sequence of the inputs. -/
theorem fit_iff : inputs.fit s.params = true ↔ InputsFit s inputs := by
  unfold LaunchInputs.fit InputsFit LengthFits
  simp only [Bool.and_eq_true, List.all_eq_true, fitsLength, fitsLimit_iff, Prod.forall, and_assoc]

/-- R385, R393: LOAD answers nothing where it is not allowed. -/
theorem load_eq_none (h : s.runStatus = .running ∨ ¬InputsFit s inputs) : load inputs s = none := by
  rw [← fit_iff, Bool.not_eq_true] at h
  exact if_pos h

/-- R386: LOAD rebuilds the whole run state. -/
theorem load_eq_some (hr : s.runStatus ≠ .running) (hfit : InputsFit s inputs) :
    load inputs s = some { s with
      runStatus := .idle, frames := [topFrame inputs.code inputs.tx (buildWorld inputs.state)]
      world := buildWorld inputs.state, destruct := [], nonce := [], logs := [], tx := inputs.tx
      block := inputs.block, steps := 0, result := none, lastFailure := 0 } := by
  refine if_neg ?_
  rw [fit_iff.mpr hfit]
  simp [hr]

/-- R55: writing the listed accounts over `w`, as `buildWorld` does over the empty world, leaves every other address as
it was. -/
theorem mapGet_written_of_not_mem {state : List (Addr × AccountInput)} {A : Addr} (w : World)
    (h : A ∉ state.map Prod.fst) :
    mapGet (state.foldl (fun w entry => putAccount w entry.1 entry.2.account) w) A.toNat = mapGet w A.toNat := by
  induction state generalizing w with
  | nil => rfl
  | cons e rest ih =>
    rw [List.map_cons, List.mem_cons, not_or] at h
    obtain ⟨hne, hrest⟩ := h
    rw [List.foldl_cons, ih _ hrest, putAccount, mapGet_mapPut, if_neg (toNat_inj_addr.not.mpr hne)]

/-- R55: a listed account, its address named once, stands in the world that is built. -/
theorem mapGet_written_of_mem {state : List (Addr × AccountInput)} {A : Addr} {a : AccountInput} (w : World)
    (hnd : (state.map Prod.fst).Nodup) (h : (A, a) ∈ state) :
    mapGet (state.foldl (fun w entry => putAccount w entry.1 entry.2.account) w) A.toNat = some a.account := by
  induction state generalizing w with
  | nil => cases h
  | cons e rest ih =>
    rw [List.map_cons, List.nodup_cons] at hnd
    obtain ⟨hnot, hnd⟩ := hnd
    rw [List.foldl_cons]
    rcases List.mem_cons.mp h with rfl | h
    · rw [mapGet_written_of_not_mem _ hnot, putAccount, mapGet_mapPut, if_pos rfl]
    · exact ih _ hnd h

/-- Settles O54: LOAD and then START, and the entries of the world built from the inputs. -/
theorem launchState : Obligations.LaunchState := by
  unfold Obligations.LaunchState
  refine ⟨fun inputs s => ⟨fun h => ?_, fun hr hfit => ?_⟩, fun state hnd => ⟨fun A a h => ?_, fun A h => ?_⟩⟩
  · have hload := load_eq_none h
    exact ⟨hload, by rw [launch, hload]; rfl⟩
  · rw [launch, load_eq_some hr hfit]
    rfl
  · exact mapGet_written_of_mem [] hnd h
  · exact mapGet_written_of_not_mem [] h

end Sys2Proof.Machine
end

section
/-!
PROOFS of the family spec/20_memory.md. First the memory unit itself: what `written`, the term the statements use,
is in the terms of the model, and the byte order of a stored Word (R73, R75, R80, R81, R85).
-/

namespace Sys2Proof

/-- R21: byte `i` of the big-endian bytes of `x`. -/
theorem bytesBE_getElem? (n x i : Nat) (h : i < n) :
    (bytesBE n x)[i]? = some (BitVec.ofNat 8 (x / 256 ^ (n - 1 - i))) := by
  induction n generalizing i with
  | zero => omega
  | succ n ih =>
    cases i with
    | zero => rfl
    | succ i =>
      rw [bytesBE, List.getElem?_cons_succ, ih i (by omega)]
      congr 4
      omega

namespace Machine

open Sys2Proof.Rules

/-- R75: the write of the statements is the model's growth and store. -/
theorem written_eq (s : State) (f : Frame) (off : Nat) (v : Bytes) :
    written s f off v = (f.memory.grow s.params off v.length).store off v := rfl

/-- R81: the bit slices of a Word are the big-endian bytes of its value. -/
theorem bigEndian_eq (w : Word) : bigEndian w = wordBytes w := by
  refine List.ext_getElem? fun i => ?_
  unfold bigEndian wordBytes
  by_cases h : i < 32
  · have hp : (256 : Nat) ^ (32 - 1 - i) = 2 ^ (248 - 8 * i) := by
      rw [show (256 : Nat) = 2 ^ 8 from rfl, ← Nat.pow_mul]
      congr 1
      omega
    rw [bytesBE_getElem? _ _ _ h, hp, List.getElem?_map, List.getElem?_range h, Option.map_some]
    exact congrArg some (BitVec.eq_of_toNat_eq (by simp [Nat.shiftRight_eq_div_pow]))
  · rw [List.getElem?_eq_none (by simp; omega), List.getElem?_eq_none (by simp; omega)]

/-- R75: "for i in 0 .. n-1: mem[offset+i] <- v[i]", and every other byte as it was. -/
theorem byteAt_written (s : State) (f : Frame) (off : Nat) (v : Bytes) (a : Nat) :
    (written s f off v).byteAt a =
      if off ≤ a ∧ a < off + v.length then (v[a - off]?).getD 0 else f.memory.byteAt a := by
  rw [written_eq]
  split
  · rename_i h
    obtain ⟨i, rfl⟩ := Nat.exists_eq_add_of_le h.1
    have hi : i < v.length := by omega
    rw [byteAt_store_inside _ _ _ _ hi, Nat.add_sub_cancel_left, List.getElem?_eq_getElem hi, Option.getD_some]
  · exact byteAt_store_outside _ _ _ _ (by omega)

/-- R80, R81: a Word written at `o` reads back at `o`. -/
theorem beWord_bytesAt_written (s : State) (f : Frame) (o : Nat) (w : Word) :
    beWord ((written s f o (bigEndian w)).bytesAt o 32) = w := by
  have hlen : (wordBytes w).length = 32 := bytesBE_length ..
  have hread : (written s f o (wordBytes w)).bytesAt o 32 = wordBytes w := by
    conv_lhs => rw [written_eq, ← hlen, bytesAt_store]
  rw [bigEndian_eq, hread]
  exact beWord_bytesBE 32 w w.isLt

/-- R85: a byte of PadRead is the buffer's, or 0 past its end. -/
theorem padRead_getElem? (buf : Bytes) (offset n i : Nat) (h : i < n) :
    (padRead buf offset n)[i]? = some (if offset + i < buf.length then (buf[offset + i]?).getD 0 else 0) := by
  rw [padRead_get _ _ _ _ h]
  split
  · rfl
  · rw [List.getElem?_eq_none (by omega), Option.getD_none]

/-- Settles O19, from the laws of the memory unit. -/
theorem memoryUnit : Obligations.MemoryUnit := by
  unfold Obligations.MemoryUnit
  refine ⟨fun p m off n => ?_, fun s f off v => ?_, beWord_bytesAt_written, fun _ => rfl, fun buf offset n => ?_⟩
  · exact ⟨rfl, grow_byteAt m p off n, le_grownSize .., access_le_grownSize p m.size off n,
      grownSize_mod p m.size off n⟩
  · refine ⟨byteAt_written s f off v, ?_, fun hw => grow_store_wf hw s.params off _ v rfl⟩
    rw [written_eq, store_size]
    rfl
  · exact ⟨padRead_length .., padRead_getElem? buf offset n⟩

end Machine
end Sys2Proof
end

section
/-!
What an instruction leaves of its frame's memory (R75 and the store rules): one lemma for each thing an instruction
can do to the running frame, then one for each operation the meanings share.
-/

namespace Sys2Proof.Machine

open Sys2Proof.Rules

variable {s t : State} {f g g' k : Frame} {fs : List Frame} {i : Instr} {r : Option (Nat × Nat)} {off n : Nat}

/-- R75: whatever frame of its own the outcome leaves, its memory holds the bytes of `f` outside the region `r`. -/
def KeepsOutside (r : Option (Nat × Nat)) (f : Frame) (fs : List Frame) (o : Out) : Prop :=
  ∀ t g, o = .next t → OwnFrame t.frames g fs →
    ∀ a, (∀ off n, r = some (off, n) → a < off ∨ off + n ≤ a) → g.memory.byteAt a = f.memory.byteAt a

/-- A frame suspended under a child that stands on the unchanged frames is the one frame there is between them. -/
theorem ownFrame_suspended (h : OwnFrame (k :: g :: fs) g' fs) : g' = g := by
  rcases h with h | ⟨k', h⟩
  · exact absurd (List.cons.inj h).2 (List.cons_ne_self g fs)
  · exact (List.cons.inj (List.cons.inj h).2).1.symm

/-! ## What can happen to the running frame -/

/-- The frame goes on, or halts, with the cells of its memory as they were. -/
theorem keepsOutside_moved (hf : s.frames = f :: fs) (ht : t.frames = g :: s.frames.tail)
    (hc : g.memory.cells = f.memory.cells) : KeepsOutside r f fs (.next t) := by
  rintro _ g' ⟨⟩ hown a -
  cases ownFrame_setTop hf (ht ▸ hown)
  exact congrArg (mapRead unlistedByte · a) hc

/-- The frame is suspended under a child, with the cells of its memory as they were. -/
theorem keepsOutside_suspended (hf : s.frames = f :: fs) (ht : t.frames = k :: g :: s.frames.tail)
    (hc : g.memory.cells = f.memory.cells) : KeepsOutside r f fs (.next t) := by
  rintro _ g' ⟨⟩ hown a -
  rw [ht, hf, List.tail_cons] at hown
  cases ownFrame_suspended hown
  exact congrArg (mapRead unlistedByte · a) hc

/-- The frame's memory is grown for the bytes `v` and they are stored, in the region `r`. -/
theorem keepsOutside_stored {p : Params} {v : Bytes} (hf : s.frames = f :: fs) (hr : r = some (off, v.length))
    (hm : g.memory = (f.memory.grow p off n).store off v) : KeepsOutside r f fs (.next (s.setTop g)) := by
  rintro _ g' ⟨⟩ hown a ha
  cases ownFrame_setTop hf hown
  rw [hm, byteAt_store_outside _ _ _ _ (ha off v.length hr), grow_byteAt]

/-- A memory access keeps what its body, with the grown memory, keeps. -/
theorem keepsOutside_withGrown {body : Memory → Out}
    (h : KeepsOutside r f fs (body (f.memory.grow s.params off n))) :
    KeepsOutside r f fs (withGrown s f off n body) := by
  intro t g hx
  obtain ⟨-, -, hx⟩ := withGrown_next hx
  exact h t g hx

/-! ## The operations that store nothing: in every branch the frame keeps its cells -/

theorem plainOp_keepsOutside (hf : s.frames = f :: fs) : KeepsOutside r f fs (plainOp s) := by
  rw [plainOp, onTop_of_frames hf]
  exact keepsOutside_moved hf rfl rfl

theorem unaryOp_keepsOutside {op} (hf : s.frames = f :: fs) : KeepsOutside r f fs (unaryOp op s) := by
  rw [unaryOp, onTop_of_frames hf]
  split <;> exact keepsOutside_moved hf rfl rfl

theorem binaryOp_keepsOutside {op} (hf : s.frames = f :: fs) : KeepsOutside r f fs (binaryOp op s) := by
  rw [binaryOp, onTop_of_frames hf]
  split <;> exact keepsOutside_moved hf rfl rfl

theorem ternaryOp_keepsOutside {op} (hf : s.frames = f :: fs) : KeepsOutside r f fs (ternaryOp op s) := by
  rw [ternaryOp, onTop_of_frames hf]
  split <;> exact keepsOutside_moved hf rfl rfl

theorem pushOp_keepsOutside {len v} (hf : s.frames = f :: fs) : KeepsOutside r f fs (pushOp len v s) := by
  rw [pushOp, onTop_of_frames hf]
  repeat' split
  all_goals exact keepsOutside_moved hf rfl rfl

theorem popOp_keepsOutside (hf : s.frames = f :: fs) : KeepsOutside r f fs (popOp s) := by
  rw [popOp, onTop_of_frames hf]
  split <;> exact keepsOutside_moved hf rfl rfl

theorem dupOp_keepsOutside {n} (hf : s.frames = f :: fs) : KeepsOutside r f fs (dupOp n s) := by
  rw [dupOp, onTop_of_frames hf]
  repeat' split
  all_goals exact keepsOutside_moved hf rfl rfl

theorem swapOp_keepsOutside {n} (hf : s.frames = f :: fs) : KeepsOutside r f fs (swapOp n s) := by
  rw [swapOp, onTop_of_frames hf]
  repeat' split
  all_goals exact keepsOutside_moved hf rfl rfl

theorem haltWithOutput_keepsOutside {oc} (hf : s.frames = f :: fs) : KeepsOutside r f fs (haltWithOutput oc s) := by
  rw [haltWithOutput, onTop_of_frames hf]
  split
  · exact keepsOutside_withGrown (keepsOutside_moved hf rfl rfl)
  · exact keepsOutside_moved hf rfl rfl

theorem jumpTo_keepsOutside {d : Word} {st : List Word} (hf : s.frames = f :: fs) :
    KeepsOutside r f fs (jumpTo s f d st) := by
  unfold jumpTo
  split
  · split
    · exact keepsOutside_moved hf rfl rfl
    · rintro t g ⟨⟩
  · exact keepsOutside_moved hf rfl rfl

theorem execStop_keepsOutside (hf : s.frames = f :: fs) : KeepsOutside r f fs (execStop s) := by
  rw [execStop, onTop_of_frames hf]
  exact keepsOutside_moved hf rfl rfl

theorem execJump_keepsOutside (hf : s.frames = f :: fs) : KeepsOutside r f fs (execJump s) := by
  rw [execJump, onTop_of_frames hf]
  split
  · exact jumpTo_keepsOutside hf
  · exact keepsOutside_moved hf rfl rfl

theorem execJumpi_keepsOutside (hf : s.frames = f :: fs) : KeepsOutside r f fs (execJumpi s) := by
  rw [execJumpi, onTop_of_frames hf]
  split
  · split
    · exact jumpTo_keepsOutside hf
    · exact keepsOutside_moved hf rfl rfl
  · exact keepsOutside_moved hf rfl rfl

theorem execMload_keepsOutside (hf : s.frames = f :: fs) : KeepsOutside r f fs (execMload s) := by
  rw [execMload, onTop_of_frames hf]
  split
  · exact keepsOutside_withGrown (keepsOutside_moved hf rfl rfl)
  · exact keepsOutside_moved hf rfl rfl

theorem execSha3_keepsOutside (hf : s.frames = f :: fs) : KeepsOutside r f fs (execSha3 s) := by
  rw [execSha3, onTop_of_frames hf]
  split
  · exact keepsOutside_withGrown (keepsOutside_moved hf rfl rfl)
  · exact keepsOutside_moved hf rfl rfl

theorem execSload_keepsOutside (hf : s.frames = f :: fs) : KeepsOutside r f fs (execSload s) := by
  rw [execSload, onTop_of_frames hf]
  repeat' split
  all_goals exact keepsOutside_moved hf rfl rfl

theorem execSstore_keepsOutside (hf : s.frames = f :: fs) : KeepsOutside r f fs (execSstore s) := by
  rw [execSstore, onTop_of_frames hf]
  repeat' split
  all_goals exact keepsOutside_moved hf rfl rfl

theorem execSelfdestruct_keepsOutside (hf : s.frames = f :: fs) : KeepsOutside r f fs (execSelfdestruct s) := by
  rw [execSelfdestruct, onTop_of_frames hf]
  repeat' split
  all_goals exact keepsOutside_moved hf rfl rfl

theorem logOp_keepsOutside {n} (hf : s.frames = f :: fs) : KeepsOutside r f fs (logOp n s) := by
  rw [logOp, onTop_of_frames hf]
  split
  · split
    · exact keepsOutside_moved hf rfl rfl
    · split
      · exact keepsOutside_moved hf rfl rfl
      · split
        · exact keepsOutside_withGrown (keepsOutside_moved hf rfl rfl)
        · exact keepsOutside_moved hf rfl rfl
  · exact keepsOutside_moved hf rfl rfl

theorem callOp_keepsOutside {c : CallOperands} {child : ChildContext} (hf : s.frames = f :: fs) :
    KeepsOutside r f fs (callOp s f c child) := by
  unfold callOp
  split
  · exact keepsOutside_moved hf rfl rfl
  · exact keepsOutside_withGrown (keepsOutside_suspended hf rfl rfl)

theorem execCall_keepsOutside (hf : s.frames = f :: fs) : KeepsOutside r f fs (execCall s) := by
  rw [execCall, onTop_of_frames hf]
  split
  · exact keepsOutside_moved hf rfl rfl
  · split
    · exact keepsOutside_moved hf rfl rfl
    · split
      · exact keepsOutside_moved hf rfl rfl
      · exact callOp_keepsOutside hf

theorem execDelegatecall_keepsOutside (hf : s.frames = f :: fs) : KeepsOutside r f fs (execDelegatecall s) := by
  rw [execDelegatecall, onTop_of_frames hf]
  split
  · exact keepsOutside_moved hf rfl rfl
  · exact callOp_keepsOutside hf

theorem execStaticcall_keepsOutside (hf : s.frames = f :: fs) : KeepsOutside r f fs (execStaticcall s) := by
  rw [execStaticcall, onTop_of_frames hf]
  split
  · exact keepsOutside_moved hf rfl rfl
  · exact callOp_keepsOutside hf

theorem execCreate_keepsOutside (hf : s.frames = f :: fs) : KeepsOutside r f fs (execCreate s) := by
  rw [execCreate, onTop_of_frames hf]
  split
  · split
    · exact keepsOutside_moved hf rfl rfl
    · split
      · exact keepsOutside_moved hf rfl rfl
      · split
        · exact keepsOutside_moved hf rfl rfl
        · exact keepsOutside_withGrown (keepsOutside_suspended hf rfl rfl)
  · exact keepsOutside_moved hf rfl rfl

/-! ## The operations that store: the bytes they store are as long as their region -/

theorem copyOp_keepsOutside {buf ok} (hf : s.frames = f :: fs)
    (hr : ∀ d src n st, f.stack = d :: src :: n :: st → r = some (d.toNat, n.toNat)) :
    KeepsOutside r f fs (copyOp buf ok s) := by
  rw [copyOp, onTop_of_frames hf]
  split
  · rename_i d src n st hst
    split
    · exact keepsOutside_withGrown (keepsOutside_stored hf (by rw [padRead_length]; exact hr d src n st hst) rfl)
    · exact keepsOutside_moved hf rfl rfl
  · exact keepsOutside_moved hf rfl rfl

theorem execExtcodecopy_keepsOutside (hf : s.frames = f :: fs) :
    KeepsOutside (storeRegion .extcodecopy f.stack) f fs (execExtcodecopy s) := by
  rw [execExtcodecopy, onTop_of_frames hf]
  split
  · rename_i a d src n st hst
    exact keepsOutside_withGrown (keepsOutside_stored hf (by rw [hst, padRead_length]; rfl) rfl)
  · exact keepsOutside_moved hf rfl rfl

theorem execMstore_keepsOutside (hf : s.frames = f :: fs) :
    KeepsOutside (storeRegion .mstore f.stack) f fs (execMstore s) := by
  rw [execMstore, onTop_of_frames hf]
  split
  · rename_i o w st hst
    exact keepsOutside_withGrown (keepsOutside_stored hf (by rw [hst, wordBytes, bytesBE_length]; rfl) rfl)
  · exact keepsOutside_moved hf rfl rfl

theorem execMstore8_keepsOutside (hf : s.frames = f :: fs) :
    KeepsOutside (storeRegion .mstore8 f.stack) f fs (execMstore8 s) := by
  rw [execMstore8, onTop_of_frames hf]
  split
  · rename_i o w st hst
    exact keepsOutside_withGrown (keepsOutside_stored hf (by rw [hst]; rfl) rfl)
  · exact keepsOutside_moved hf rfl rfl

/-! ## Every instruction -/

/-- R75: an instruction leaves its frame's bytes as they were outside the region it stores to. -/
theorem exec_keepsOutside (i : Instr) (hf : s.frames = f :: fs) :
    KeepsOutside (storeRegion i f.stack) f fs (exec i s) := by
  cases i with
  | add | mul | sub | div | sdiv | mod | smod | exp | signextend | lt | gt | slt | sgt | eq | and | or | xor | byte
  | shl | shr | sar => exact binaryOp_keepsOutside hf
  | addmod | mulmod => exact ternaryOp_keepsOutside hf
  | iszero | not | balance | calldataload | extcodesize | extcodehash => exact unaryOp_keepsOutside hf
  | dup1 | dup2 | dup3 | dup4 | dup5 | dup6 | dup7 | dup8 | dup9 | dup10 | dup11 | dup12 | dup13 | dup14 | dup15
  | dup16 => exact dupOp_keepsOutside hf
  | swap1 | swap2 | swap3 | swap4 | swap5 | swap6 | swap7 | swap8 | swap9 | swap10 | swap11 | swap12 | swap13
  | swap14 | swap15 | swap16 => exact swapOp_keepsOutside hf
  | address | origin | caller | callvalue | calldatasize | codesize | gasprice | returndatasize | coinbase | timestamp
  | number | difficulty | gaslimit | chainid | selfbalance | basefee | pc | msize | push0 | push1 | push2 | push3
  | push4 | push5 | push6 | push7 | push8 | push9 | push10 | push11 | push12 | push13 | push14 | push15 | push16
  | push17 | push18 | push19 | push20 | push21 | push22 | push23 | push24 | push25 | push26 | push27 | push28 | push29
  | push30 | push31 | push32 =>
    unfold exec
    exact pushOp_keepsOutside hf
  | calldatacopy | codecopy | returndatacopy =>
    unfold exec
    exact copyOp_keepsOutside hf fun d src n st hst => by rw [hst]; rfl
  | extcodecopy => exact execExtcodecopy_keepsOutside hf
  | mstore => exact execMstore_keepsOutside hf
  | mstore8 => exact execMstore8_keepsOutside hf
  | ret | revert => exact haltWithOutput_keepsOutside hf
  | log0 | log1 | log2 | log3 | log4 => exact logOp_keepsOutside hf
  | stop => exact execStop_keepsOutside hf
  | sha3 => exact execSha3_keepsOutside hf
  | pop => exact popOp_keepsOutside hf
  | mload => exact execMload_keepsOutside hf
  | sload => exact execSload_keepsOutside hf
  | sstore => exact execSstore_keepsOutside hf
  | jump => exact execJump_keepsOutside hf
  | jumpi => exact execJumpi_keepsOutside hf
  | jumpdest => exact plainOp_keepsOutside hf
  | create => exact execCreate_keepsOutside hf
  | call => exact execCall_keepsOutside hf
  | delegatecall => exact execDelegatecall_keepsOutside hf
  | staticcall => exact execStaticcall_keepsOutside hf
  | selfdestruct => exact execSelfdestruct_keepsOutside hf

/-- Settles O24, by the cases of an instruction. -/
theorem onlyStoredBytesChange : Obligations.OnlyStoredBytesChange := by
  unfold Obligations.OnlyStoredBytesChange
  exact fun i s t f g fs hf hx => exec_keepsOutside i hf t g hx

end Sys2Proof.Machine
end

section
/-!
Where a run is refused (R79, R393): the fetch, the jump and the memory access, each said once; then every instruction
that accesses memory, and the return of a call's child, is shown to come to that access.
-/

namespace Sys2Proof.Machine

open Sys2Proof.Rules

variable {s : State} {f p : Frame} {fs below : List Frame} {off n : Nat} {i : Instr} {o : HaltOutcome}

/-! ## The bounds, in the terms of the statements -/

theorem fitsPc_iff : fitsPc s.params n = true ↔ PcFits s n := fitsLimit_iff

theorem fitsLength_iff : fitsLength s.params n = true ↔ LengthFits s n := fitsLimit_iff

theorem fitsCapacity_iff :
    fitsCapacity s.params (f.memory.grow s.params off n).size = true ↔ CapacityFits s f off n :=
  fitsLimit_iff

/-! ## The three places of a refusal -/

/-- R79, R393: a memory access past a bound is refused, whatever would follow it. -/
theorem withGrown_refused (s : State) (f : Frame) (off n : Nat) (body : Memory → Out) :
    AccessRefused s f off n (withGrown s f off n body) := by
  unfold AccessRefused withGrown
  rw [← fitsLength_iff, ← fitsCapacity_iff]
  exact ⟨fun hl => if_neg hl, fun hl hc => by rw [if_pos hl, if_neg hc]⟩

/-- R393: a jump to a valid target is refused where the pc register does not hold the pc past it. -/
theorem jumpTo_refused {t : Word} (st : List Word) (ht : t.toNat ∈ f.jumpdests) (hp : ¬PcFits s (t.toNat + 1)) :
    jumpTo s f t st = .refused .registerWidthExceeded := by
  rw [jumpTo, if_pos ht, if_neg (fitsPc_iff.not.mpr hp)]

/-- R240 part 3: the fetch that does not pass STEP_LIMIT is counted. -/
theorem countFetch_of_mayFetch (h : MayFetch s) : ∃ s', countFetch s = some s' := by
  unfold countFetch
  split
  · exact ⟨s, rfl⟩
  · exact ⟨_, if_neg (Nat.not_lt.mpr (h _ ‹_›))⟩

/-- R393: the fetch that would pass STEP_LIMIT is not. -/
theorem countFetch_eq_none {limit : Nat} (h : s.params.stepLimit = some limit) (hlt : limit < s.steps + 1) :
    countFetch s = none := by
  simp only [countFetch, h, if_pos hlt]

/-- R102: where there is a byte to fetch, decoding does not find the end of the code. -/
theorem decode_ne_endOfCode {bs : Bytes} (h : bs ≠ []) : decode bs ≠ .endOfCode := by
  unfold decode
  split
  · exact absurd rfl h
  · split <;> simp

/-- R387: a step of a running frame is what its fetch says. -/
theorem nextPhase_of_running (h : Running s f fs) : nextPhase s = fetchPhase s f := by
  obtain ⟨hr, hf, hst⟩ := h
  simp only [nextPhase, runPhase, hr, hf, hst]

theorem step_of_stepLimit {limit : Nat} (h : Running s f fs) (hpc : f.pc < f.code.length)
    (hlim : s.params.stepLimit = some limit) (hlt : limit < s.steps + 1) : step s = .refused .stepLimitExceeded := by
  have hend : decode (f.code.drop f.pc) ≠ .endOfCode := decode_ne_endOfCode (by simpa using hpc)
  rw [step, nextPhase_of_running h, fetchPhase, countFetch_eq_none hlim hlt]
  cases hd : decode (f.code.drop f.pc) with
  | endOfCode => exact absurd hd hend
  | unknownOpcode op => rfl
  | instr i rest => rfl

theorem step_of_pcLimit {rest : Bytes} (h : Running s f fs) (hd : decode (f.code.drop f.pc) = .instr i rest)
    (hm : MayFetch s) (hp : ¬PcFits s (f.pc + i.length)) : step s = .refused .registerWidthExceeded := by
  obtain ⟨s', hc⟩ := countFetch_of_mayFetch hm
  rw [step, nextPhase_of_running h, fetchPhase, hd, hc]
  simp only [if_neg (fitsPc_iff.not.mpr hp)]

/-! ## The jumps, and the instructions that access memory, where their other checks pass -/

section
variable (hf : s.frames = f :: fs)
include hf

theorem execJump_refused {t : Word} {st : List Word} (hst : f.stack = t :: st) (ht : t.toNat ∈ f.jumpdests)
    (hp : ¬PcFits s (t.toNat + 1)) : execJump s = .refused .registerWidthExceeded := by
  rw [execJump, onTop_of_frames hf, hst]
  exact jumpTo_refused st ht hp

theorem execJumpi_refused {t c : Word} {st : List Word} (hst : f.stack = t :: c :: st) (hc : c ≠ 0)
    (ht : t.toNat ∈ f.jumpdests) (hp : ¬PcFits s (t.toNat + 1)) : execJumpi s = .refused .registerWidthExceeded := by
  rw [execJumpi, onTop_of_frames hf, hst]
  exact (if_pos (decide_eq_true hc)).trans (jumpTo_refused st ht hp)

theorem execMload_refused {a : Word} {st : List Word} (hst : f.stack = a :: st) :
    AccessRefused s f a.toNat 32 (execMload s) := by
  rw [execMload, onTop_of_frames hf, hst]
  exact withGrown_refused ..

theorem execMstore_refused {a w : Word} {st : List Word} (hst : f.stack = a :: w :: st) :
    AccessRefused s f a.toNat 32 (execMstore s) := by
  rw [execMstore, onTop_of_frames hf, hst]
  exact withGrown_refused ..

theorem execMstore8_refused {a w : Word} {st : List Word} (hst : f.stack = a :: w :: st) :
    AccessRefused s f a.toNat 1 (execMstore8 s) := by
  rw [execMstore8, onTop_of_frames hf, hst]
  exact withGrown_refused ..

theorem execSha3_refused {a w : Word} {st : List Word} (hst : f.stack = a :: w :: st) :
    AccessRefused s f a.toNat w.toNat (execSha3 s) := by
  rw [execSha3, onTop_of_frames hf, hst]
  exact withGrown_refused ..

theorem haltWithOutput_refused {oc : Bytes → HaltOutcome} {a w : Word} {st : List Word}
    (hst : f.stack = a :: w :: st) :
    AccessRefused s f a.toNat w.toNat (haltWithOutput oc s) := by
  rw [haltWithOutput, onTop_of_frames hf, hst]
  exact withGrown_refused ..

theorem copyOp_refused {buf : Frame → Bytes} {ok : Frame → Nat → Nat → Bool} {d src w : Word} {st : List Word}
    (hst : f.stack = d :: src :: w :: st) (hok : ok f src.toNat w.toNat = true) :
    AccessRefused s f d.toNat w.toNat (copyOp buf ok s) := by
  rw [copyOp, onTop_of_frames hf, hst]
  simp only [hok, if_true]
  exact withGrown_refused ..

theorem execExtcodecopy_refused {a d src w : Word} {st : List Word} (hst : f.stack = a :: d :: src :: w :: st) :
    AccessRefused s f d.toNat w.toNat (execExtcodecopy s) := by
  rw [execExtcodecopy, onTop_of_frames hf, hst]
  exact withGrown_refused ..

theorem logOp_refused {k : Nat} {a size : Word} {topics st : List Word} {A : Addr}
    (hst : f.stack = a :: size :: (topics ++ st)) (hk : topics.length = k) (hs : f.isStatic = false)
    (hA : f.address = some A) : AccessRefused s f a.toNat size.toNat (logOp k s) := by
  have hlen : ¬(topics ++ st).length < k := by simp [hk]
  rw [logOp, onTop_of_frames hf, hst]
  simp only [if_neg hlen, hs, hA, Bool.false_eq_true, if_false]
  exact withGrown_refused ..

theorem execCreate_refused {v a size : Word} {st : List Word} {A : Addr} (hst : f.stack = v :: a :: size :: st)
    (hs : f.isStatic = false) (hA : f.address = some A) (hd : f.depth + 1 ≤ s.params.depthLimit)
    (hv : v.toNat ≤ (balanceOf s.world A).toNat) : AccessRefused s f a.toNat size.toNat (execCreate s) := by
  have hb : createBlocked s f A v = none := by
    rw [createBlocked, if_neg (Nat.not_lt.mpr hd), if_neg (Nat.not_lt.mpr hv)]
  rw [execCreate, onTop_of_frames hf, hst]
  simp only [hs, hA, hb, Bool.false_eq_true, if_false]
  exact withGrown_refused ..

end

/-! ## The calls -/

/-- R309: the operands of a call with a value, with and without the gas operand. -/
theorem popCall_callStack (s : State) (g a v inOff inSize outOff outSize : Word) (st : List Word) :
    popCall s.params.callHasGasOperand (callStack s g (a :: v :: inOff :: inSize :: outOff :: outSize :: st)) =
      some { target := a, value := v, inOff := inOff, inSize := inSize, outOff := outOff, outSize := outSize
             rest := st } := by
  unfold callStack
  cases s.params.callHasGasOperand <;> rfl

/-- R309: the operands of a call without a value. -/
theorem popCallNoValue_callStack (s : State) (g a inOff inSize outOff outSize : Word) (st : List Word) :
    popCallNoValue s.params.callHasGasOperand (callStack s g (a :: inOff :: inSize :: outOff :: outSize :: st)) =
      some { target := a, value := 0, inOff := inOff, inSize := inSize, outOff := outOff, outSize := outSize
             rest := st } := by
  unfold callStack
  cases s.params.callHasGasOperand <;> rfl

/-- R310, R311, R314: what lets a call enter its child. -/
theorem callBlocked_eq_none {c : CallOperands} (hcode : codeOf s.world (toAddr c.target) ≠ [])
    (hd : f.depth + 1 ≤ s.params.depthLimit)
    (hv : c.value = 0 ∨ ∃ A, f.address = some A ∧ c.value.toNat ≤ (balanceOf s.world A).toNat) :
    callBlocked s f c = none := by
  have hpaid : ¬(c.value ≠ 0 ∧ fallsShort s.world f.address c.value = true) := by
    rintro ⟨hne, hshort⟩
    obtain ⟨A, hA, hle⟩ := hv.resolve_left hne
    rw [hA, fallsShort, decide_eq_true_iff] at hshort
    omega
  rw [callBlocked, if_neg (List.length_eq_zero_iff.not.mpr hcode), if_neg (Nat.not_lt.mpr hd), if_neg hpaid]

/-- R314: a call that is not blocked reads its input. -/
theorem callOp_refused {c : CallOperands} (child : ChildContext) (hb : callBlocked s f c = none) :
    AccessRefused s f c.inOff.toNat c.inSize.toNat (callOp s f c child) := by
  simp only [callOp, hb]
  exact withGrown_refused ..

theorem execCall_refused {c : CallOperands} (hf : s.frames = f :: fs)
    (hpop : popCall s.params.callHasGasOperand f.stack = some c) (hcode : codeOf s.world (toAddr c.target) ≠ [])
    (hd : f.depth + 1 ≤ s.params.depthLimit)
    (hv : c.value = 0 ∨
      f.isStatic = false ∧ ∃ A, f.address = some A ∧ c.value.toNat ≤ (balanceOf s.world A).toNat) :
    AccessRefused s f c.inOff.toNat c.inSize.toNat (execCall s) := by
  have hstatic : ¬(f.isStatic = true ∧ c.value ≠ 0) := by
    rintro ⟨hs, hne⟩
    rw [(hv.resolve_left hne).1] at hs
    cases hs
  have haddr : ¬(c.value ≠ 0 ∧ f.address = none) := by
    rintro ⟨hne, hnone⟩
    obtain ⟨-, A, hA, -⟩ := hv.resolve_left hne
    rw [hA] at hnone
    cases hnone
  rw [execCall, onTop_of_frames hf]
  simp only [hpop, if_neg hstatic, if_neg haddr]
  exact callOp_refused _ (callBlocked_eq_none hcode hd (hv.imp_right And.right))

theorem callNoValue_refused {c : CallOperands} (hf : s.frames = f :: fs)
    (hpop : popCallNoValue s.params.callHasGasOperand f.stack = some c)
    (hcode : codeOf s.world (toAddr c.target) ≠ []) (hd : f.depth + 1 ≤ s.params.depthLimit) :
    AccessRefused s f c.inOff.toNat c.inSize.toNat (execDelegatecall s) ∧
      AccessRefused s f c.inOff.toNat c.inSize.toNat (execStaticcall s) := by
  have hb := callBlocked_eq_none hcode hd (.inl (popCallNoValue_rest hpop).2)
  rw [execDelegatecall, execStaticcall, onTop_of_frames hf, onTop_of_frames hf]
  simp only [hpop]
  exact ⟨callOp_refused _ hb, callOp_refused _ hb⟩

/-- R308, R316: the step of a call's halted child is its return, which copies the output. -/
theorem callReturn_refused {k : Frame} {outOff outSize : Word} (hr : s.runStatus = .running)
    (hf : s.frames = k :: p :: below) (hst : k.status = .halted o)
    (hk : k.kind = .call outOff outSize ∨ k.kind = .delegateCall outOff outSize ∨
      k.kind = .staticCall outOff outSize) :
    AccessRefused s p outOff.toNat outSize.toNat (step s) := by
  have hstep : step s = callReturn s o k.snapshot outOff outSize p below := by
    rcases hk with hk | hk | hk <;> simp only [step, nextPhase, runPhase, returnTransition, hr, hf, hst, hk]
  rw [hstep]
  exact withGrown_refused ..

/-- R270: when RETURNDATACOPY may read. -/
theorem returnReadAllowed_eq_true {src len : Nat}
    (h : s.params.returndatacopyOob = .zeroPad ∨ src + len ≤ f.returndata.length) :
    returnReadAllowed s.params f src len = true := by
  unfold returnReadAllowed
  split
  · rfl
  · rename_i hoob
    rw [hoob] at h
    exact decide_eq_true (h.resolve_left nofun)

/-- Settles O25: each clause is one of the three places of a refusal, reached. -/
theorem limitsRefuse : Obligations.LimitsRefuse := by
  unfold Obligations.LimitsRefuse
  refine ⟨fun s f fs limit => step_of_stepLimit, fun s f fs i rest => step_of_pcLimit, fun s f fs hf => ?_,
    fun s k p fs o outOff outSize => callReturn_refused⟩
  refine ⟨fun a st hst => execMload_refused hf hst, fun a w st hst => ?_, fun d src n st hst => ?_,
    fun a d src n st hst => execExtcodecopy_refused hf hst, fun i n a size topics st A hi hst hn hs hA => ?_,
    fun v a size st A => execCreate_refused hf, fun g a v inOff inSize outOff outSize st hcode hd => ?_,
    fun hj t st ht hp => ?_⟩
  · exact ⟨execMstore_refused hf hst, execMstore8_refused hf hst, execSha3_refused hf hst,
      haltWithOutput_refused hf hst, haltWithOutput_refused hf hst⟩
  · exact ⟨copyOp_refused (buf := Frame.calldata) (ok := fun _ _ _ => true) hf hst rfl,
      copyOp_refused (buf := Frame.code) (ok := fun _ _ _ => true) hf hst rfl,
      fun hok => copyOp_refused hf hst (returnReadAllowed_eq_true hok)⟩
  · have hlog := logOp_refused hf hst hn hs hA
    simp only [List.mem_cons, Prod.mk.injEq, List.not_mem_nil, or_false] at hi
    rcases hi with ⟨rfl, rfl⟩ | ⟨rfl, rfl⟩ | ⟨rfl, rfl⟩ | ⟨rfl, rfl⟩ | ⟨rfl, rfl⟩ <;> exact hlog
  · constructor
    · intro hst hv
      have hpop := popCall_callStack s g a v inOff inSize outOff outSize st
      rw [← hst] at hpop
      exact execCall_refused hf hpop hcode hd hv
    · intro hst
      have hpop := popCallNoValue_callStack s g a inOff inSize outOff outSize st
      rw [← hst] at hpop
      exact callNoValue_refused hf hpop hcode hd
  · rw [← hj] at ht
    exact ⟨fun hst => execJump_refused hf hst ht hp, fun c hc hst => execJumpi_refused hf hst hc ht hp⟩

end Sys2Proof.Machine
end

section
/-!
PROOFS of the family spec/30_encoding.md. First one lemma over all instructions for each half of the opcode map (the
encoder's parts read back; what is read has the parts it was read from), then `decode` in terms of the map, then the
obligations.
-/

namespace Sys2Proof

/-! ## The immediate and its bytes -/

/-- R103: the 107 one-byte opcodes have no immediate. -/
theorem opRows_immWidth : ∀ row ∈ opRows, immWidth row.1 = 0 := by decide +kernel

theorem opRows_imm : ∀ row ∈ opRows, row.2.parts.2 = 0 := by decide +kernel

theorem immWidth_pushByte {n : Nat} (hn : n ≤ 32) : immWidth (BitVec.ofNat 8 (0x5f + n)) = n := by
  rw [immWidth, BitVec.toNat_ofNat, Nat.mod_eq_of_lt (by omega)]
  split <;> omega

/-- R110: for every instruction, well-formed means that the immediate fits in the opcode's immediate bytes. -/
theorem Instr.wf_eq (i : Instr) : i.wf = fitsBytes (immWidth i.opcode) i.parts.2 := by
  cases i <;> rfl

theorem Instr.wf_iff {i : Instr} : i.wf = true ↔ i.parts.2.toNat < 256 ^ immWidth i.opcode := by
  rw [Instr.wf_eq, fitsBytes, decide_eq_true_iff]

/-- A Word holds the value of up to 32 bytes. -/
theorem beWord_toNat {bs : Bytes} (h : bs.length ≤ 32) : (beWord bs).toNat = beNat bs := by
  have hword : 256 ^ bs.length ≤ 256 ^ 32 := Nat.pow_le_pow_right (by decide) h
  exact Nat.mod_eq_of_lt ((beNat_lt bs).trans_le hword)

theorem padRead_cons (op : Byte) (tl : Bytes) (n : Nat) : padRead (op :: tl) 0 (1 + n) = op :: padRead tl 0 n := by
  simp [padRead, Nat.add_comm 1 n, List.range_succ_eq_map]

/-! ## The opcode map -/

theorem pushOf_imm {n : Nat} {w : Word} {i : Instr} (h : pushOf n w = some i) : i.parts.2 = w := by
  unfold pushOf at h
  split at h <;> cases h <;> rfl

theorem exists_pushOf {n : Nat} (w : Word) (h1 : 1 ≤ n) (h32 : n ≤ 32) : ∃ i, pushOf n w = some i := by
  interval_cases n <;> exact ⟨_, rfl⟩

/-- R104: the map reads an instruction's opcode byte and immediate as that instruction. -/
theorem decodeOp_parts (i : Instr) : decodeOp i.opcode i.parts.2 = some i :=
  open Laws.OpcodeRow in
  match i with
  | .stop => stop | .add => add | .mul => mul | .sub => sub | .div => div | .sdiv => sdiv | .mod => mod
  | .smod => smod | .addmod => addmod | .mulmod => mulmod | .exp => exp | .signextend => signextend | .lt => lt
  | .gt => gt | .slt => slt | .sgt => sgt | .eq => eq | .iszero => iszero | .and => and | .or => or | .xor => xor
  | .not => not | .byte => byte | .shl => shl | .shr => shr | .sar => sar | .sha3 => sha3 | .address => address
  | .balance => balance | .origin => origin | .caller => caller | .callvalue => callvalue
  | .calldataload => calldataload | .calldatasize => calldatasize | .calldatacopy => calldatacopy
  | .codesize => codesize | .codecopy => codecopy | .gasprice => gasprice | .extcodesize => extcodesize
  | .extcodecopy => extcodecopy | .returndatasize => returndatasize | .returndatacopy => returndatacopy
  | .extcodehash => extcodehash | .coinbase => coinbase | .timestamp => timestamp | .number => number
  | .difficulty => difficulty | .gaslimit => gaslimit | .chainid => chainid | .selfbalance => selfbalance
  | .basefee => basefee | .pop => pop | .mload => mload | .mstore => mstore | .mstore8 => mstore8 | .sload => sload
  | .sstore => sstore | .jump => jump | .jumpi => jumpi | .pc => pc | .msize => msize | .jumpdest => jumpdest
  | .push0 => push0 | .push1 imm => push1 imm | .push2 imm => push2 imm | .push3 imm => push3 imm
  | .push4 imm => push4 imm | .push5 imm => push5 imm | .push6 imm => push6 imm | .push7 imm => push7 imm
  | .push8 imm => push8 imm | .push9 imm => push9 imm | .push10 imm => push10 imm | .push11 imm => push11 imm
  | .push12 imm => push12 imm | .push13 imm => push13 imm | .push14 imm => push14 imm | .push15 imm => push15 imm
  | .push16 imm => push16 imm | .push17 imm => push17 imm | .push18 imm => push18 imm | .push19 imm => push19 imm
  | .push20 imm => push20 imm | .push21 imm => push21 imm | .push22 imm => push22 imm | .push23 imm => push23 imm
  | .push24 imm => push24 imm | .push25 imm => push25 imm | .push26 imm => push26 imm | .push27 imm => push27 imm
  | .push28 imm => push28 imm | .push29 imm => push29 imm | .push30 imm => push30 imm | .push31 imm => push31 imm
  | .push32 imm => push32 imm | .dup1 => dup1 | .dup2 => dup2 | .dup3 => dup3 | .dup4 => dup4 | .dup5 => dup5
  | .dup6 => dup6 | .dup7 => dup7 | .dup8 => dup8 | .dup9 => dup9 | .dup10 => dup10 | .dup11 => dup11
  | .dup12 => dup12 | .dup13 => dup13 | .dup14 => dup14 | .dup15 => dup15 | .dup16 => dup16 | .swap1 => swap1
  | .swap2 => swap2 | .swap3 => swap3 | .swap4 => swap4 | .swap5 => swap5 | .swap6 => swap6 | .swap7 => swap7
  | .swap8 => swap8 | .swap9 => swap9 | .swap10 => swap10 | .swap11 => swap11 | .swap12 => swap12 | .swap13 => swap13
  | .swap14 => swap14 | .swap15 => swap15 | .swap16 => swap16 | .log0 => log0 | .log1 => log1 | .log2 => log2
  | .log3 => log3 | .log4 => log4 | .create => create | .call => call | .ret => ret | .delegatecall => delegatecall
  | .staticcall => staticcall | .revert => revert | .selfdestruct => selfdestruct

/-- What the map reads has the immediate it was read from; a one-byte instruction has none, written 0. -/
theorem decodeOp_imm {op : Byte} {w : Word} {i : Instr} (h : decodeOp op w = some i)
    (hw : w.toNat < 256 ^ immWidth op) : i.parts.2 = w := by
  unfold decodeOp at h
  split at h
  · rename_i h0
    obtain ⟨row, hrow, rfl⟩ := Option.map_eq_some_iff.mp h
    rw [h0, pow_zero, Nat.lt_one_iff] at hw
    rw [opRows_imm row (List.mem_of_find?_eq_some hrow)]
    exact (BitVec.eq_of_toNat_eq hw).symm
  · exact pushOf_imm h

/-- R103: whether a byte is an opcode is decided by the byte alone. -/
theorem decodeOp_eq_none_iff {op : Byte} {w : Word} : decodeOp op w = none ↔ decodeOp op 0 = none := by
  by_cases h0 : immWidth op = 0
  · simp only [decodeOp, if_pos h0]
  · have hpush (w : Word) : decodeOp op w ≠ none := by
      obtain ⟨i, hi⟩ := exists_pushOf w (Nat.one_le_iff_ne_zero.mpr h0) (immWidth_le op)
      simp [decodeOp, h0, hi]
    exact iff_of_false (hpush w) (hpush 0)

/-! ## Decoding in terms of the map -/

theorem decode_eq_instr_iff {bs rest : Bytes} {i : Instr} :
    decode bs = .instr i rest ↔
      ∃ op tl, bs = op :: tl ∧ decodeOp op (beWord (padRead tl 0 (immWidth op))) = some i ∧
        rest = tl.drop (immWidth op) := by
  cases bs with
  | nil => simp [decode]
  | cons op tl =>
    cases hop : decodeOp op (beWord (padRead tl 0 (immWidth op))) <;> simp [decode, hop, eq_comm]

theorem decode_eq_unknownOpcode_iff {op : Byte} {tl : Bytes} :
    decode (op :: tl) = .unknownOpcode op ↔ decodeOp op 0 = none := by
  rw [← decodeOp_eq_none_iff (w := beWord (padRead tl 0 (immWidth op))), decode]
  cases decodeOp op (beWord (padRead tl 0 (immWidth op))) <;> simp

/-- R101: a row of the map is a one-byte instruction, whatever bytes follow. -/
theorem decode_row {op : Byte} {i : Instr} (h : (op, i) ∈ opRows) (tl : Bytes) : decode (op :: tl) = .instr i tl := by
  have h0 : immWidth op = 0 := opRows_immWidth _ h
  have hop : decodeOp op 0 = some i := Laws.OpcodeRow.row_found _ h
  exact decode_eq_instr_iff.mpr ⟨op, tl, rfl, by rw [h0]; exact hop, by rw [h0, List.drop_zero]⟩

/-- R103: the instructions `family` have the consecutive bytes from `base` on, as rows of the map. -/
def ConsecutiveRows (base : Nat) (family : List Instr) : Prop :=
  ∀ (k : Nat) (h : k < family.length), (BitVec.ofNat 8 (base + k), family[k]) ∈ opRows

theorem ConsecutiveRows.exists_decode {base k : Nat} {family : List Instr} (h : ConsecutiveRows base family)
    (hk : k < family.length) (tl : Bytes) :
    ∃ i, family[k]? = some i ∧ decode (BitVec.ofNat 8 (base + k) :: tl) = .instr i tl :=
  ⟨family[k], List.getElem?_eq_getElem hk, decode_row (h k hk) tl⟩

theorem consecutiveRows_dup :
    ConsecutiveRows 0x80 [.dup1, .dup2, .dup3, .dup4, .dup5, .dup6, .dup7, .dup8, .dup9, .dup10, .dup11, .dup12, .dup13,
      .dup14, .dup15, .dup16] := by
  unfold ConsecutiveRows
  decide +kernel

theorem consecutiveRows_swap :
    ConsecutiveRows 0x90 [.swap1, .swap2, .swap3, .swap4, .swap5, .swap6, .swap7, .swap8, .swap9, .swap10, .swap11,
      .swap12, .swap13, .swap14, .swap15, .swap16] := by
  unfold ConsecutiveRows
  decide +kernel

theorem consecutiveRows_log : ConsecutiveRows 0xa0 [.log0, .log1, .log2, .log3, .log4] := by
  unfold ConsecutiveRows
  decide +kernel

/-! ## Encoding and decoding -/

@[simp] theorem encode_length (i : Instr) : (encode i).length = i.length := by
  rw [encode, List.length_cons, bytesBE_length, Instr.length, Nat.add_comm]

/-- R101, R102: the immediate bytes of a well-formed instruction are read back as its immediate. -/
theorem decode_encode {i : Instr} (h : i.wf = true) (rest : Bytes) : decode (encode i ++ rest) = .instr i rest := by
  have hlen : (bytesBE (immWidth i.opcode) i.parts.2.toNat).length = immWidth i.opcode := bytesBE_length ..
  have hread := padRead_append (bytesBE (immWidth i.opcode) i.parts.2.toNat) rest
  rw [hlen] at hread
  refine decode_eq_instr_iff.mpr ⟨i.opcode, _, List.cons_append, ?_, (List.drop_left' hlen).symm⟩
  rw [hread, beWord_bytesBE _ _ (Instr.wf_iff.mp h)]
  exact decodeOp_parts i

/-- Settles O1: the map reads the encoder's opcode and immediate back, and the immediate bytes lose nothing. -/
theorem decodeOfEncode : Obligations.DecodeOfEncode := by
  unfold Obligations.DecodeOfEncode
  intro i rest h
  refine ⟨decode_encode h rest, encode_length i, ?_⟩
  have := immWidth_le i.opcode
  unfold Instr.length
  omega

/-- Settles O2: what is decoded has the opcode byte and the immediate it was read from. -/
theorem encodeOfDecode : Obligations.EncodeOfDecode := by
  unfold Obligations.EncodeOfDecode
  intro bs rest i h
  obtain ⟨op, tl, rfl, hop, rfl⟩ := decode_eq_instr_iff.mp h
  obtain rfl := decodeOp_opcode hop
  have hnat : (beWord (padRead tl 0 (immWidth i.opcode))).toNat = beNat (padRead tl 0 (immWidth i.opcode)) :=
    beWord_toNat (by simpa using immWidth_le i.opcode)
  have hlt := beNat_lt (padRead tl 0 (immWidth i.opcode))
  have hbytes := bytesBE_beNat (padRead tl 0 (immWidth i.opcode))
  rw [padRead_length] at hlt hbytes
  have himm := decodeOp_imm hop (hnat ▸ hlt)
  refine ⟨Instr.wf_iff.mpr (by rw [himm, hnat]; exact hlt), ?_, ?_⟩
  · rw [Instr.length, Nat.add_comm, List.drop_succ_cons]
  · rw [encode, himm, hnat, hbytes, Instr.length, padRead_cons]

namespace Machine

open Sys2Proof.Rules

variable {s : State} {f : Frame} {fs : List Frame}

/-- R240 part 3: the fetch that does not pass STEP_LIMIT answers the state with the fetch counted. -/
theorem countFetch_eq_afterFetch (h : MayFetch s) : countFetch s = some (afterFetch s) := by
  cases hl : s.params.stepLimit with
  | none => simp only [countFetch, afterFetch, hl]
  | some limit => simp only [countFetch, afterFetch, hl, if_neg (Nat.not_lt.mpr (h limit hl))]

@[simp] theorem afterFetch_frames (s : State) : (afterFetch s).frames = s.frames := by
  unfold afterFetch
  split <;> rfl

/-- R350: in the terms of the statements, raising changes the running frame's status alone. -/
theorem raise_eq_afterFailure (hf : s.frames = f :: fs) (k : FailureKind) :
    raise s f k = .next (afterFailure s f fs k) := by
  rw [raise_def, failed_def, State.setTop, hf]
  rfl

/-- R345: the step that fetches a byte that is no opcode. -/
theorem step_of_unknownOpcode {op : Byte} (h : Running s f fs) (hm : MayFetch s)
    (hd : decode (f.code.drop f.pc) = .unknownOpcode op) :
    step s = .next (afterFailure (afterFetch s) f fs .unknownOpcode) := by
  rw [step, nextPhase_of_running h, fetchPhase, hd, countFetch_eq_afterFetch hm]
  obtain ⟨-, hf, -⟩ := h
  exact raise_eq_afterFailure ((afterFetch_frames s).trans hf) _

end Machine

/-- Settles O3: an unknown byte is unknown whatever follows it, so the list is checked byte by byte, and the fetch of
one raises. -/
theorem unknownOpcodes : Obligations.UnknownOpcodes := by
  unfold Obligations.UnknownOpcodes
  constructor
  · intro op rest
    rw [decode_eq_unknownOpcode_iff]
    revert op
    decide +kernel
  · intro s f fs op hrun hop hm hd
    obtain ⟨hpc, hget⟩ := List.getElem?_eq_some_iff.mp hop
    refine Machine.step_of_unknownOpcode (op := op) hrun hm ?_
    rw [List.drop_eq_getElem_cons hpc, hget]
    exact decode_eq_unknownOpcode_iff.mpr (decode_eq_unknownOpcode_iff.mp hd)

/-- R103: PUSHn is byte 0x5f + n and reads its immediate from the n bytes that follow. -/
theorem decode_pushByte {n : Nat} (h1 : 1 ≤ n) (h32 : n ≤ 32) (bs : Bytes) :
    ∃ i, pushOf n (beWord (padRead bs 0 n)) = some i ∧
      decode (BitVec.ofNat 8 (0x5f + n) :: bs) = .instr i (bs.drop n) := by
  obtain ⟨i, hi⟩ := exists_pushOf (beWord (padRead bs 0 n)) h1 h32
  have hn : immWidth (BitVec.ofNat 8 (0x5f + n)) = n := immWidth_pushByte h32
  refine ⟨i, hi, decode_eq_instr_iff.mpr ⟨_, bs, rfl, ?_, by rw [hn]⟩⟩
  rw [decodeOp, hn, if_neg (by omega), hi]

/-- Settles O4: the length is one and the width of the opcode byte read; PUSH goes by `pushOf`, the three other
families by consecutive rows of the map. -/
theorem rangeCodedFamilies : Obligations.RangeCodedFamilies := by
  unfold Obligations.RangeCodedFamilies
  refine ⟨fun op i bs rest h => ?_, fun n bs h1 h32 => decode_pushByte h1 h32 bs, fun n bs h1 h16 => ?_,
    fun n bs h1 h16 => ?_, fun n bs h4 => ?_⟩
  · obtain ⟨_, _, hbs, hop, -⟩ := decode_eq_instr_iff.mp h
    cases hbs
    rw [Instr.length, decodeOp_opcode hop, immWidth]
  · obtain ⟨k, rfl⟩ := Nat.exists_eq_add_of_le' h1
    rw [Nat.add_sub_cancel, ← Nat.add_assoc, Nat.add_right_comm]
    exact consecutiveRows_dup.exists_decode h16 bs
  · obtain ⟨k, rfl⟩ := Nat.exists_eq_add_of_le' h1
    rw [Nat.add_sub_cancel, ← Nat.add_assoc, Nat.add_right_comm]
    exact consecutiveRows_swap.exists_decode h16 bs
  · exact consecutiveRows_log.exists_decode (Nat.lt_succ_of_le h4) bs

/-- Settles O5: each word is a closed computation of the decoder. -/
theorem writtenWordsDecode : Obligations.WrittenWordsDecode := by
  unfold Obligations.WrittenWordsDecode
  decide +kernel

end Sys2Proof
end

section
/-!
PROOFS of the rule shapes of the plain one-byte instructions (spec/40_arithmetic.md R120, spec/41_compare_bitwise.md
R140): a row of the opcode map is `OneByte`, and an instruction whose meaning is one of the shared operations obeys the
rule of that operation, for any Word function equal to the model's.
-/

namespace Sys2Proof.Machine

open Sys2Proof.Rules

variable {s : State} {f : Frame} {fs : List Frame} {i : Instr} {op : Byte}

/-- R101: the instruction of a row of the map is its opcode byte alone. -/
theorem oneByte_of_row (h : (op, i) ∈ opRows) : OneByte i op := by
  refine ⟨?_, decode_row h⟩
  have hop : i.opcode = op := opRows_opcode _ h
  have h0 : immWidth op = 0 := opRows_immWidth _ h
  rw [encode, hop, h0, bytesBE]

/-- R240 part 5: in the terms of the statements, the sequential advance. -/
theorem proceed_eq (hf : s.frames = f :: fs) (len : Nat) (st : List Word) :
    s.setTop (f.proceed len st) = { s with frames := { f with stack := st, pc := f.pc + len } :: fs } := by
  rw [State.setTop, hf, List.tail_cons, Frame.proceed]

theorem binaryOp_of_stack {g : Word → Word → Word} {a b : Word} {st : List Word} (hf : s.frames = f :: fs)
    (hst : f.stack = a :: b :: st) : binaryOp g s = .next (s.setTop (f.proceed 1 (g a b :: st))) := by
  rw [binaryOp, onTop_of_frames hf, hst]

theorem binaryOp_underflow {g : Word → Word → Word} (hf : s.frames = f :: fs) (hlen : f.stack.length < 2) :
    binaryOp g s = raise s f .stackUnderflow := by
  rw [binaryOp, onTop_of_frames hf]
  match hst : f.stack with
  | [] | [_] => rfl
  | _ :: _ :: _ => rw [hst, List.length_cons, List.length_cons] at hlen; omega

theorem ternaryOp_of_stack {g : Word → Word → Word → Word} {a b c : Word} {st : List Word} (hf : s.frames = f :: fs)
    (hst : f.stack = a :: b :: c :: st) : ternaryOp g s = .next (s.setTop (f.proceed 1 (g a b c :: st))) := by
  rw [ternaryOp, onTop_of_frames hf, hst]

theorem ternaryOp_underflow {g : Word → Word → Word → Word} (hf : s.frames = f :: fs) (hlen : f.stack.length < 3) :
    ternaryOp g s = raise s f .stackUnderflow := by
  rw [ternaryOp, onTop_of_frames hf]
  match hst : f.stack with
  | [] | [_] | [_, _] => rfl
  | _ :: _ :: _ :: _ => rw [hst, List.length_cons, List.length_cons, List.length_cons] at hlen; omega

/-- R120, R140: an instruction that runs `binaryOp` obeys the rule of two operands. -/
theorem binaryRule_of_exec {g g' : Word → Word → Word} (hrow : (op, i) ∈ opRows) (hexec : ∀ s, exec i s = binaryOp g s)
    (hg : ∀ a b, g a b = g' a b) : BinaryRule i op g' := by
  refine ⟨oneByte_of_row hrow, fun s f fs hf => ⟨fun a b st hst => ?_, fun hlen => ?_⟩⟩
  · rw [hexec, binaryOp_of_stack hf hst, proceed_eq hf, hg]
  · rw [hexec, binaryOp_underflow hf hlen, raise_eq_afterFailure hf]

/-- R120: an instruction that runs `ternaryOp` obeys the rule of three operands. -/
theorem ternaryRule_of_exec {g g' : Word → Word → Word → Word} (hrow : (op, i) ∈ opRows)
    (hexec : ∀ s, exec i s = ternaryOp g s) (hg : ∀ a b c, g a b c = g' a b c) : TernaryRule i op g' := by
  refine ⟨oneByte_of_row hrow, fun s f fs hf => ⟨fun a b c st hst => ?_, fun hlen => ?_⟩⟩
  · rw [hexec, ternaryOp_of_stack hf hst, proceed_eq hf, hg]
  · rw [hexec, ternaryOp_underflow hf hlen, raise_eq_afterFailure hf]

end Sys2Proof.Machine
end

section
/-!
PROOFS of the family spec/40_arithmetic.md: for each function of the unit whose formula in the statements is not the
model's own, one lemma that the two agree; then the obligations.
-/

namespace Sys2Proof.Machine

open Sys2Proof.Rules

/-! ## Addition, subtraction and the power -/

/-- R18: narrowing reduces modulo 2^256. -/
theorem natWord_mod (n : Nat) : natWord (n % 2 ^ 256) = natWord n :=
  BitVec.eq_of_toNat_eq (by simp [natWord])

theorem natWord_eq_of_modEq {m n : Nat} (h : m ≡ n [MOD 2 ^ 256]) : natWord m = natWord n := by
  rw [← natWord_mod m, h, natWord_mod]

theorem natWord_toNat_of_lt {n : Nat} (h : n < 2 ^ 256) : (natWord n).toNat = n := by
  rw [natWord, BitVec.toNat_ofNat, Nat.mod_eq_of_lt h]

/-- R121: ADD is the addition of the Words. -/
theorem aluAdd_eq (a b : Word) : aluAdd a b = a + b := (BitVec.add_def a b).symm

/-- R123: the difference of the naturals, with 2^256 borrowed. -/
theorem aluSub_eq_natWord (a b : Word) : aluSub a b = natWord (a.toNat + (2 ^ 256 - b.toNat)) := by
  apply BitVec.eq_of_toNat_eq
  rw [aluSub, intWord, natWord, BitVec.toNat_ofInt, BitVec.toNat_ofNat]
  have hb := b.isLt
  omega

/-- R123: SUB is the subtraction of the Words. -/
theorem aluSub_eq (a b : Word) : aluSub a b = a - b := by
  rw [aluSub_eq_natWord, BitVec.sub_def, Nat.add_comm, natWord]

/-- Squaring consumes one bit of the exponent a round, so as many rounds as the exponent has bits are enough. -/
theorem powLoop_modEq (rounds base e acc : Nat) (h : e < 2 ^ rounds) :
    powLoop rounds base e acc ≡ acc * base ^ e [MOD 2 ^ 256] := by
  induction rounds generalizing base e acc with
  | zero =>
    obtain rfl : e = 0 := by omega
    rw [powLoop, pow_zero, mul_one]
  | succ r ih =>
    cases e with
    | zero => rw [powLoop, pow_zero, mul_one]
    | succ e =>
      have hhalf : (e + 1) / 2 < 2 ^ r := by rw [pow_succ] at h; omega
      have hsquare : (base * base % 2 ^ 256) ^ ((e + 1) / 2) ≡ base ^ (2 * ((e + 1) / 2)) [MOD 2 ^ 256] := by
        rw [pow_mul, pow_two]
        exact (Nat.mod_modEq _ _).pow _
      rw [powLoop]
      refine (ih _ _ _ hhalf).trans ?_
      split
      · have he : e + 1 = 1 + 2 * ((e + 1) / 2) := by omega
        conv => rhs; rw [he, pow_add, pow_one, ← mul_assoc]
        exact (Nat.mod_modEq _ _).mul hsquare
      · have he : e + 1 = 2 * ((e + 1) / 2) := by omega
        conv => rhs; rw [he]
        exact hsquare.mul_left acc

/-- R130: EXP is the power modulo 2^256. -/
theorem aluExp_eq (a b : Word) : aluExp a b = natWord (a.toNat ^ b.toNat) := by
  rw [aluExp]
  apply natWord_eq_of_modEq
  simpa only [one_mul] using powLoop_modEq 256 a.toNat b.toNat 1 b.isLt

/-- Settles O13: the intermediate is exact in the model, and reducing it before it is narrowed changes nothing. -/
theorem modularArithmetic : Obligations.ModularArithmetic := by
  unfold Obligations.ModularArithmetic
  exact ⟨binaryRule_of_exec (by decide) (fun _ => rfl) fun _ _ => (natWord_mod _).symm,
    binaryRule_of_exec (by decide) (fun _ => rfl) fun _ _ => (natWord_mod _).symm,
    binaryRule_of_exec (by decide) (fun _ => rfl) fun a b => (aluSub_eq_natWord a b).trans (natWord_mod _).symm,
    ternaryRule_of_exec (by decide) (fun _ => rfl) fun _ _ _ => rfl,
    ternaryRule_of_exec (by decide) (fun _ => rfl) fun _ _ _ => rfl,
    binaryRule_of_exec (by decide) (fun _ => rfl) fun a b => (aluExp_eq a b).trans (natWord_mod _).symm⟩

/-! ## Quotients and remainders -/

/-- R125: truncating division by the magnitudes and the two signs. -/
theorem tdiv_eq_natAbs_div (a b : Int) : a.tdiv b =
    if (decide (a < 0)) != (decide (b < 0)) then -((a.natAbs / b.natAbs : Nat) : Int)
    else ((a.natAbs / b.natAbs : Nat) : Int) := by
  rw [Int.ofNat_tdiv]
  by_cases ha : a < 0 <;> by_cases hb : b < 0
  · simp [ha, hb, abs_of_neg]
  · simp [ha, hb, abs_of_neg, abs_of_nonneg (not_lt.mp hb)]
  · simp [ha, hb, abs_of_neg, abs_of_nonneg (not_lt.mp ha)]
  · simp [ha, hb, abs_of_nonneg (not_lt.mp ha), abs_of_nonneg (not_lt.mp hb)]

/-- R127: the remainder of truncating division by the magnitudes and the sign of the dividend. -/
theorem tmod_eq_natAbs_mod (a b : Int) : a.tmod b =
    if a < 0 then -((a.natAbs % b.natAbs : Nat) : Int) else ((a.natAbs % b.natAbs : Nat) : Int) := by
  have habs := Int.natAbs_tmod a b
  split
  · have hneg : 0 ≤ (-a).tmod b := Int.tmod_nonneg b (by omega)
    rw [Int.neg_tmod] at hneg
    omega
  · have hpos : 0 ≤ a.tmod b := Int.tmod_nonneg b (by omega)
    omega

/-- R125: SDIV is truncating division, narrowed. -/
theorem aluSdiv_eq (a b : Word) : aluSdiv a b =
    if b = 0 then 0 else if a = minWord ∧ b = maxWord then minWord else intWord (a.toInt.tdiv b.toInt) := by
  rw [aluSdiv, tdiv_eq_natAbs_div, apply_ite intWord]

/-- R127: SMOD is the remainder of truncating division, narrowed. -/
theorem aluSmod_eq (a b : Word) : aluSmod a b = if b = 0 then 0 else intWord (a.toInt.tmod b.toInt) := by
  rw [aluSmod, tmod_eq_natAbs_mod, apply_ite intWord]

/-- Settles O14: of the three only the signed division is written otherwise in the model, by magnitudes and signs. -/
theorem division : Obligations.Division := by
  unfold Obligations.Division
  exact ⟨binaryRule_of_exec (by decide) (fun _ => rfl) fun _ _ => rfl,
    binaryRule_of_exec (by decide) (fun _ => rfl) aluSdiv_eq,
    binaryRule_of_exec (by decide) (fun _ => rfl) fun _ _ => rfl⟩

theorem toNat_aluDiv {a b : Word} (hb : b ≠ 0) : (aluDiv a b).toNat = a.toNat / b.toNat := by
  rw [aluDiv, if_neg hb, natWord_toNat_of_lt ((Nat.div_le_self _ _).trans_lt a.isLt)]

theorem toNat_aluMod {a b : Word} (hb : b ≠ 0) : (aluMod a b).toNat = a.toNat % b.toNat := by
  rw [aluMod, if_neg hb, natWord_toNat_of_lt ((Nat.mod_le _ _).trans_lt a.isLt)]

/-- R125: but for MIN / -1 the quotient is in the signed range, so narrowing keeps it. -/
theorem toInt_aluSdiv {a b : Word} (hb : b ≠ 0) (h : ¬(a = minWord ∧ b = maxWord)) :
    (aluSdiv a b).toInt = a.toInt.tdiv b.toInt := by
  have hmin : minWord = BitVec.intMin 256 := by decide
  have hmax : maxWord = -1#256 := by decide
  rw [aluSdiv_eq, if_neg hb, if_neg h, intWord, BitVec.toInt_ofInt, ← BitVec.toInt_sdiv]
  exact BitVec.toInt_sdiv_of_ne_or_ne a b (not_and_or.mp (hmin ▸ hmax ▸ h))

/-- R127: the remainder is in the signed range, so narrowing keeps it. -/
theorem toInt_aluSmod {a b : Word} (hb : b ≠ 0) : (aluSmod a b).toInt = a.toInt.tmod b.toInt := by
  rw [aluSmod_eq, if_neg hb, ← BitVec.toInt_srem, intWord, BitVec.ofInt_toInt]

theorem toInt_ne_zero {b : Word} (hb : b ≠ 0) : b.toInt ≠ 0 := fun h => hb (BitVec.eq_of_toInt_eq h)

/-- R127: the signed remainder is smaller than the modulus. -/
theorem natAbs_aluSmod_lt (a : Word) {b : Word} (hb : b ≠ 0) : (aluSmod a b).toInt.natAbs < b.toInt.natAbs := by
  rw [toInt_aluSmod hb, Int.natAbs_tmod]
  exact Nat.mod_lt _ (Int.natAbs_pos.mpr (toInt_ne_zero hb))

/-- R127, D40: a remainder other than 0 has the sign of the dividend. -/
theorem aluSmod_neg_iff {a b : Word} (hb : b ≠ 0) (h0 : aluSmod a b ≠ 0) : (aluSmod a b).toInt < 0 ↔ a.toInt < 0 := by
  have hne := toInt_ne_zero h0
  rw [toInt_aluSmod hb, tmod_eq_natAbs_mod] at hne ⊢
  by_cases ha : a.toInt < 0
  · rw [if_pos ha] at hne ⊢
    omega
  · rw [if_neg ha] at hne ⊢
    omega

/-- Settles O15: each law is read off the value of the functions, as naturals or in the signed view. -/
theorem arithmeticLaws : Obligations.ArithmeticLaws := by
  unfold Obligations.ArithmeticLaws
  intro a b
  refine ⟨?_, ?_, fun hb => ?_, fun hb hov => ?_, fun hb => ⟨natAbs_aluSmod_lt a hb, ?_⟩⟩
  · rw [aluAdd_eq, aluSub_eq, BitVec.sub_add_cancel]
  · rw [aluAdd_eq, aluSub_eq, BitVec.add_sub_cancel]
  · rw [toNat_aluDiv hb, toNat_aluMod hb, Nat.div_add_mod]
  · rw [toInt_aluSdiv hb hov, toInt_aluSmod hb, Int.mul_tdiv_add_tmod]
  · exact or_iff_not_imp_left.mpr (aluSmod_neg_iff hb)

/-! ## SIGNEXTEND and SAR -/

/-- The mask of the bits from `m` on. -/
theorem getLsbD_highMask {m : Nat} (hm : m ≤ 256) (i : Nat) :
    (natWord (2 ^ 256 - 2 ^ m)).getLsbD i = (decide (i < 256) && !decide (i < m)) := by
  have hpos := Nat.two_pow_pos m
  have hle : 2 ^ m ≤ 2 ^ 256 := Nat.pow_le_pow_right (by decide) hm
  rw [natWord, BitVec.getLsbD_ofNat, ← Nat.sub_add_cancel hpos, Nat.testBit_two_pow_sub_succ (by omega),
    Nat.testBit_two_pow_sub_one, ← Bool.and_assoc, Bool.and_self]

/-- The mask of the bits below `m`. -/
theorem getLsbD_lowMask (m i : Nat) : (natWord (2 ^ m - 1)).getLsbD i = (decide (i < 256) && decide (i < m)) := by
  rw [natWord, BitVec.getLsbD_ofNat, Nat.testBit_two_pow_sub_one]

/-- R131, D12: setting or clearing the bits above bit 8k + 7 as that bit is extends its sign. -/
theorem aluSignextend_eq (k x : Word) : aluSignextend k x =
    if 31 ≤ k.toNat then x else (x.setWidth (8 * k.toNat + 8)).signExtend 256 := by
  rw [aluSignextend]
  split
  · rfl
  · next hk =>
    have hmsb : (x.setWidth (8 * k.toNat + 8)).msb = x.getLsbD (8 * k.toNat + 7) := by simp [BitVec.msb_setWidth]
    dsimp only
    apply BitVec.eq_of_getLsbD_eq
    intro i hi
    rw [BitVec.getLsbD_signExtend, BitVec.getLsbD_setWidth, hmsb]
    cases hsign : x.getLsbD (8 * k.toNat + 7) with
    | true =>
      rw [if_pos rfl, BitVec.getLsbD_or, getLsbD_highMask (by omega)]
      by_cases hlow : i < 8 * k.toNat + 8 <;> simp [hi, hlow]
    | false =>
      rw [if_neg Bool.false_ne_true, BitVec.getLsbD_and, getLsbD_lowMask]
      by_cases hlow : i < 8 * k.toNat + 8 <;> simp [hi, hlow]

/-- R154: SAR by less than 256 is floor division by a power of two, which is positive. -/
theorem aluSar_eq (n x : Word) : aluSar n x =
    if 256 ≤ n.toNat then (if x.toNat < 2 ^ 255 then 0 else maxWord) else BitVec.ofInt 256 (x.toInt / 2 ^ n.toNat) := by
  rw [aluSar, Int.fdiv_eq_ediv_of_nonneg _ (by positivity), intWord]

/-- Settles O16: each reading is the model's function in the signed view, or bit by bit. -/
theorem smodSignextendSar : Obligations.SmodSignextendSar := by
  unfold Obligations.SmodSignextendSar
  exact ⟨binaryRule_of_exec (by decide) (fun _ => rfl) aluSmod_eq,
    binaryRule_of_exec (by decide) (fun _ => rfl) aluSignextend_eq,
    binaryRule_of_exec (by decide) (fun _ => rfl) aluSar_eq⟩

end Sys2Proof.Machine
end

section
/-!
PROOFS of the family spec/41_compare_bitwise.md. First the rule of one operand and two ways a Word is read (as a
condition, bit by bit), then for each function of the unit whose formula in the statements is not the model's own, one
lemma that the two agree; then the obligations.
-/

namespace Sys2Proof.Machine

open Sys2Proof.Rules

/-! ## The rule of one operand -/

section
variable {s : State} {f : Frame} {fs : List Frame} {i : Instr} {op : Byte}

theorem unaryOp_of_stack {g : Frame → Word → Word} {a : Word} {st : List Word} (hf : s.frames = f :: fs)
    (hst : f.stack = a :: st) : unaryOp g s = .next (s.setTop (f.proceed 1 (g f a :: st))) := by
  rw [unaryOp, onTop_of_frames hf, hst]

theorem unaryOp_underflow {g : Frame → Word → Word} (hf : s.frames = f :: fs) (hst : f.stack = []) :
    unaryOp g s = raise s f .stackUnderflow := by
  rw [unaryOp, onTop_of_frames hf, hst]

/-- R140: an instruction that runs `unaryOp` obeys the rule of one operand. -/
theorem unaryRule_of_exec {g g' : State → Frame → Word → Word} (hrow : (op, i) ∈ opRows)
    (hexec : ∀ s, exec i s = unaryOp (g s) s) (hg : ∀ s f a, g s f a = g' s f a) : UnaryRule i op g' := by
  refine ⟨oneByte_of_row hrow, fun s f fs hf => ⟨fun a st hst => ?_, fun hst => ?_⟩⟩
  · rw [hexec, unaryOp_of_stack hf hst, proceed_eq hf, hg]
  · rw [hexec, unaryOp_underflow hf hst, raise_eq_afterFailure hf]

end

/-! ## Comparisons -/

/-- R141, R155: the Word of a decided condition. -/
theorem conditionWord_decide (p : Prop) [Decidable p] : conditionWord (decide p) = if p then 1 else 0 := by
  by_cases h : p
  · rw [if_pos h, decide_eq_true h]; rfl
  · rw [if_neg h, decide_eq_false h]; rfl

/-- Settles O17: each comparison is the Word of its condition. -/
theorem comparisons : Obligations.Comparisons := by
  unfold Obligations.Comparisons
  exact ⟨binaryRule_of_exec (by decide) (fun _ => rfl) fun _ _ => conditionWord_decide _,
    binaryRule_of_exec (by decide) (fun _ => rfl) fun _ _ => conditionWord_decide _,
    binaryRule_of_exec (by decide) (fun _ => rfl) fun _ _ => conditionWord_decide _,
    binaryRule_of_exec (by decide) (fun _ => rfl) fun _ _ => conditionWord_decide _,
    binaryRule_of_exec (by decide) (fun _ => rfl) fun _ _ => conditionWord_decide _,
    unaryRule_of_exec (by decide) (fun _ => rfl) fun _ _ _ => conditionWord_decide _⟩

/-! ## Bitwise operations and logical shifts -/

/-- R147 to R149: a Word is given by its 256 bits. -/
theorem word_eq_ofFnLE {w : Word} {bit : Fin 256 → Bool} (h : ∀ j : Fin 256, w.getLsbD j = bit j) :
    w = BitVec.ofFnLE bit := by
  apply BitVec.eq_of_getLsbD_eq
  intro j hj
  rw [BitVec.getLsbD_ofFnLE, dif_pos hj]
  exact h ⟨j, hj⟩

/-- R150: inverting every bit is the difference from MAX. -/
theorem aluNot_eq (a : Word) : aluNot a = natWord (2 ^ 256 - 1 - a.toNat) := by
  rw [aluNot, natWord, ← BitVec.toNat_not, BitVec.ofNat_toNat, BitVec.setWidth_eq]

/-- R151: byte `i` counted from the most significant begins at bit `248 - 8i`. -/
theorem aluByte_eq (i x : Word) :
    aluByte i x = if 32 ≤ i.toNat then 0 else (x.extractLsb' (248 - 8 * i.toNat) 8).setWidth 256 := by
  rw [aluByte]
  split
  · rfl
  · have hoff : 8 * (31 - i.toNat) = 248 - 8 * i.toNat := by omega
    apply BitVec.eq_of_toNat_eq
    rw [hoff, natWord, BitVec.toNat_ofNat, BitVec.toNat_setWidth, BitVec.extractLsb'_toNat, Nat.shiftRight_eq_div_pow]

/-- R152: reducing the shifted value before it is narrowed changes nothing. -/
theorem aluShl_eq (n x : Word) :
    aluShl n x = if 256 ≤ n.toNat then 0 else natWord (x.toNat * 2 ^ n.toNat % 2 ^ 256) := by
  rw [aluShl, natWord_mod]

/-- Settles O18: the bitwise operations go by the bits of their result, the byte and the shifts by its value. -/
theorem bitwiseAndShifts : Obligations.BitwiseAndShifts := by
  unfold Obligations.BitwiseAndShifts
  exact ⟨binaryRule_of_exec (by decide) (fun _ => rfl) fun _ _ => word_eq_ofFnLE fun _ => BitVec.getLsbD_and,
    binaryRule_of_exec (by decide) (fun _ => rfl) fun _ _ => word_eq_ofFnLE fun _ => BitVec.getLsbD_or,
    binaryRule_of_exec (by decide) (fun _ => rfl) fun _ _ => word_eq_ofFnLE fun _ => BitVec.getLsbD_xor,
    unaryRule_of_exec (by decide) (fun _ => rfl) fun _ _ => aluNot_eq,
    binaryRule_of_exec (by decide) (fun _ => rfl) aluByte_eq,
    binaryRule_of_exec (by decide) (fun _ => rfl) aluShl_eq,
    binaryRule_of_exec (by decide) (fun _ => rfl) fun _ _ => rfl⟩

end Sys2Proof.Machine
end

section
/-!
PROOFS of the family spec/42_stack.md. First what each shared stack operation answers in each of its cases, and the rule
an instruction that runs it obeys; then the PUSH family by `pushOf`, one argument for its 32 instructions, and its step
of the machine; then the obligations.
-/

namespace Sys2Proof

/-- R85: reading at an offset is reading the head of what begins there. -/
theorem padRead_drop (buf : Bytes) (off n : Nat) : padRead (buf.drop off) 0 n = padRead buf off n := by
  simp [padRead]

namespace Machine

open Sys2Proof.Rules

variable {s : State} {f : Frame} {fs : List Frame} {i : Instr} {op : Byte} {len n : Nat} {w : Word} {st : List Word}

/-! ## The shared stack operations -/

section
variable (hf : s.frames = f :: fs)
include hf

section
variable {v : Frame → Option Word}

theorem pushOp_of_some (hlen : f.stack.length < s.params.stackLimit) (hv : v f = some w) :
    pushOp len v s = .next (s.setTop (f.proceed len (w :: f.stack))) := by
  rw [pushOp, onTop_of_frames hf, if_pos hlen, hv]

theorem pushOp_of_none (hlen : f.stack.length < s.params.stackLimit) (hv : v f = none) :
    pushOp len v s = raise s f .missingContextField := by
  rw [pushOp, onTop_of_frames hf, if_pos hlen, hv]

theorem pushOp_overflow (hlen : s.params.stackLimit ≤ f.stack.length) :
    pushOp len v s = raise s f .stackOverflow := by
  rw [pushOp, onTop_of_frames hf, if_neg (Nat.not_lt.mpr hlen)]

end

theorem popOp_of_stack {a : Word} (hst : f.stack = a :: st) : popOp s = .next (s.setTop (f.proceed 1 st)) := by
  rw [popOp, onTop_of_frames hf, hst]

theorem popOp_underflow (hst : f.stack = []) : popOp s = raise s f .stackUnderflow := by
  rw [popOp, onTop_of_frames hf, hst]

theorem dupOp_of_stack (hw : f.stack[n - 1]? = some w) (hlen : f.stack.length < s.params.stackLimit) :
    dupOp n s = .next (s.setTop (f.proceed 1 (w :: f.stack))) := by
  rw [dupOp, onTop_of_frames hf, hw]
  exact if_pos hlen

theorem dupOp_underflow (hlen : f.stack.length < n) : dupOp n s = raise s f .stackUnderflow := by
  rw [dupOp, onTop_of_frames hf, List.getElem?_eq_none (Nat.le_sub_one_of_lt hlen)]

theorem dupOp_overflow (hn : 1 ≤ n) (hle : n ≤ f.stack.length) (hlen : s.params.stackLimit ≤ f.stack.length) :
    dupOp n s = raise s f .stackOverflow := by
  rw [dupOp, onTop_of_frames hf, List.getElem?_eq_getElem (Nat.sub_one_lt_of_le hn hle)]
  exact if_neg (Nat.not_lt.mpr hlen)

/-- R164: `mid` is what lies between the two exchanged Words, so the lower one is at its length, under the top. -/
theorem swapOp_of_stack {a b : Word} {mid low : List Word} (hst : f.stack = a :: (mid ++ b :: low))
    (hn : mid.length + 1 = n) : swapOp n s = .next (s.setTop (f.proceed 1 (b :: (mid ++ a :: low)))) := by
  have hidx : n - 1 = mid.length := by omega
  have hget : (mid ++ b :: low)[mid.length]? = some b := by simp
  have hset : (mid ++ b :: low).set mid.length a = mid ++ a :: low := by simp
  simp only [swapOp, onTop_of_frames hf, hst, hidx, hget, hset]

theorem swapOp_underflow (hlen : f.stack.length < n + 1) : swapOp n s = raise s f .stackUnderflow := by
  rw [swapOp, onTop_of_frames hf]
  cases hst : f.stack with
  | nil => rfl
  | cons t st =>
    rw [hst, List.length_cons, Nat.add_lt_add_iff_right] at hlen
    simp only [List.getElem?_eq_none (Nat.le_sub_one_of_lt hlen)]

end

/-! ## The rules of the instructions that run them -/

/-- R160, R255: an instruction that runs `pushOp` obeys the rule of a push. -/
theorem pushEffect_of_exec {v : State → Frame → Option Word} (hexec : ∀ s, exec i s = pushOp len (v s) s) :
    PushEffect i len v := by
  refine fun s f fs hf => ⟨fun hlen w hw => ?_, fun hlen hw => ?_, fun hlen => ?_⟩
  · rw [hexec, pushOp_of_some hf hlen hw, proceed_eq hf]
  · rw [hexec, pushOp_of_none hf hlen hw, raise_eq_afterFailure hf]
  · rw [hexec, pushOp_overflow hf hlen, raise_eq_afterFailure hf]

/-- R200: an instruction that runs `dupOp n` obeys the rule of DUPn. -/
theorem dupRule_of_exec (hn : 1 ≤ n) (hrow : (BitVec.ofNat 8 (0x7f + n), i) ∈ opRows)
    (hexec : ∀ s, exec i s = dupOp n s) : DupRule i n := by
  refine ⟨oneByte_of_row hrow, fun s f fs hf => ⟨fun w hw hlen => ?_, fun hlen => ?_, fun hle hlen => ?_⟩⟩
  · rw [hexec, dupOp_of_stack hf hw hlen, proceed_eq hf]
  · rw [hexec, dupOp_underflow hf hlen, raise_eq_afterFailure hf]
  · rw [hexec, dupOp_overflow hf hn hle hlen, raise_eq_afterFailure hf]

/-- R217: an instruction that runs `swapOp n` obeys the rule of SWAPn. -/
theorem swapRule_of_exec (hrow : (BitVec.ofNat 8 (0x8f + n), i) ∈ opRows) (hexec : ∀ s, exec i s = swapOp n s) :
    SwapRule i n := by
  refine ⟨oneByte_of_row hrow, fun s f fs hf => ⟨fun a mid b low hst hn => ?_, fun hlen => ?_⟩⟩
  · rw [hexec, swapOp_of_stack hf hst hn, proceed_eq hf]
  · rw [hexec, swapOp_underflow hf hlen, raise_eq_afterFailure hf]

/-! ## The PUSH family -/

/-- R166: PUSHn pushes its immediate and is n + 1 bytes long. -/
theorem exec_pushOf (h : pushOf n w = some i) (s : State) : exec i s = pushOp (n + 1) (fun _ => some w) s := by
  unfold pushOf at h
  split at h <;> cases h <;> rfl

theorem pushEffect_pushOf (h : pushOf n w = some i) : PushEffect i (n + 1) (fun _ _ => some w) :=
  pushEffect_of_exec (exec_pushOf h)

theorem length_pushOf (h : pushOf n w = some i) (hn : n ≤ 32) : i.length = n + 1 := by
  rw [Instr.length, pushOf_opcode h, immWidth_pushByte hn, Nat.add_comm]

@[simp] theorem afterFetch_params (s : State) : (afterFetch s).params = s.params := by
  unfold afterFetch
  split <;> rfl

/-- R240: the step that fetches an instruction executes it in the state with the fetch counted. -/
theorem step_of_instr {rest : Bytes} (h : Running s f fs) (hd : decode (f.code.drop f.pc) = .instr i rest)
    (hm : MayFetch s) (hp : PcFits s (f.pc + i.length)) : step s = exec i (afterFetch s) := by
  rw [step, nextPhase_of_running h, fetchPhase, hd, countFetch_eq_afterFetch hm]
  simp only [if_pos (fitsPc_iff.mpr hp)]

/-- R102, R103: at byte 0x5f + n the code decodes to the PUSHn whose immediate is the n bytes after it, zero-padded. -/
theorem decode_pushAt (h1 : 1 ≤ n) (h32 : n ≤ 32) (hop : f.code[f.pc]? = some (BitVec.ofNat 8 (0x5f + n))) :
    ∃ i rest, pushOf n (beWord (padRead f.code (f.pc + 1) n)) = some i ∧
      decode (f.code.drop f.pc) = .instr i rest := by
  obtain ⟨hpc, hget⟩ := List.getElem?_eq_some_iff.mp hop
  obtain ⟨i, hi, hd⟩ := decode_pushByte h1 h32 (f.code.drop (f.pc + 1))
  rw [padRead_drop] at hi
  exact ⟨i, _, hi, by rw [List.drop_eq_getElem_cons hpc, hget, hd]⟩

/-! ## The obligations -/

/-- Settles O8: the step executes the PUSHn that the code decodes to, which obeys the rule of a push. -/
theorem pushReadsImmediate : Obligations.PushReadsImmediate := by
  unfold Obligations.PushReadsImmediate
  intro n s f fs h1 h32 hrun hm hp hop
  obtain ⟨i, rest, hi, hd⟩ := decode_pushAt h1 h32 hop
  have hpc : f.pc + 1 + n = f.pc + (n + 1) := by omega
  have hstep : step s = exec i (afterFetch s) :=
    step_of_instr hrun hd hm (by rwa [length_pushOf hi h32, ← hpc])
  obtain ⟨-, hf, -⟩ := hrun
  obtain ⟨hpush, -, hover⟩ := pushEffect_pushOf hi (afterFetch s) f fs ((afterFetch_frames s).trans hf)
  rw [hstep, hpc, ← afterFetch_params s]
  exact ⟨fun hlen => hpush hlen _ rfl, hover⟩

/-- Settles O9: each is the PUSHn of `pushOf`. -/
theorem pushInstructions : Obligations.PushInstructions := by
  unfold Obligations.PushInstructions
  intro w
  and_intros <;> exact pushEffect_pushOf rfl

/-- Settles O11: each is a row of the map that runs `dupOp n`. -/
theorem dupInstructions : Obligations.DupInstructions := by
  unfold Obligations.DupInstructions
  refine ⟨?_, ?_, ?_, ?_, ?_, ?_, ?_, ?_, ?_, ?_, ?_, ?_, ?_, ?_, ?_, ?_⟩ <;>
    exact dupRule_of_exec (by decide) (by decide) fun _ => rfl

/-- Settles O12: each is a row of the map that runs `swapOp n`. -/
theorem swapInstructions : Obligations.SwapInstructions := by
  unfold Obligations.SwapInstructions
  refine ⟨?_, ?_, ?_, ?_, ?_, ?_, ?_, ?_, ?_, ?_, ?_, ?_, ?_, ?_, ?_, ?_⟩ <;>
    exact swapRule_of_exec (by decide) fun _ => rfl

/-- Settles O10: POP runs `popOp`, and PUSH0 obeys the rule of a push. -/
theorem popAndPushZero : Obligations.PopAndPushZero := by
  unfold Obligations.PopAndPushZero
  refine ⟨⟨oneByte_of_row (by decide), fun s f fs hf => ⟨fun a st hst => ?_, fun hst => ?_⟩⟩,
    oneByte_of_row (by decide), pushEffect_of_exec fun _ => rfl⟩
  · exact (popOp_of_stack hf hst).trans (by rw [proceed_eq hf])
  · exact (popOp_underflow hf hst).trans (raise_eq_afterFailure hf _)

end Machine
end Sys2Proof
end

section
/-!
PROOFS of the family spec/43_memory_ops.md. First a memory access within the bounds, said once in the terms of the
statements; then what each of the four instructions answers with its operands on the stack and without them.
-/

namespace Sys2Proof.Machine

open Sys2Proof.Rules

variable {s : State} {f : Frame} {fs : List Frame} {off n : Nat} {o w : Word} {st : List Word}

/-! ## A memory access within the bounds -/

/-- R73, R79, R393: within the bounds the access goes on with the memory the statements call `grown`. -/
theorem withGrown_eq_grown (hfit : Fits s f off n) (body : Memory → Out) :
    withGrown s f off n body = body (grown s f off n) := by
  obtain ⟨hlen, hcap⟩ := hfit
  exact withGrown_of_fits (fitsLength_iff.mpr hlen) (fitsCapacity_iff.mpr hcap)

/-- R240 part 5: within the bounds, an access that completes its instruction leaves the running frame advanced, with the
stack and the memory it is given, and the rest of the state as it was. -/
theorem withGrown_proceed (hf : s.frames = f :: fs) (hfit : Fits s f off n) (after : Memory → Memory) :
    withGrown s f off n (fun m => .next (s.setTop { f.proceed 1 st with memory := after m })) =
      .next { s with
        frames := { f with stack := st, pc := f.pc + 1, memory := after (grown s f off n) } :: fs } := by
  rw [withGrown_eq_grown hfit, State.setTop, hf, List.tail_cons, Frame.proceed]

/-- R81: a Word is 32 bytes. -/
theorem bigEndian_length (w : Word) : (bigEndian w).length = 32 := by
  rw [bigEndian, List.length_map, List.length_range]

/-- R237: `w mod 256` is the least significant byte of `w`. -/
theorem ofNat_mod_eq_setWidth (w : Word) : BitVec.ofNat 8 (w.toNat % 256) = w.setWidth 8 :=
  BitVec.eq_of_toNat_eq (by simp)

/-- A stack without two operands, in the two shapes that it has. -/
theorem stack_eq_of_length_lt_two (h : st.length < 2) : st = [] ∨ ∃ a, st = [a] := by
  match st with
  | [] => exact .inl rfl
  | [a] => exact .inr ⟨a, rfl⟩
  | _ :: _ :: _ => rw [List.length_cons, List.length_cons] at h; omega

/-! ## The four instructions -/

section
variable (hf : s.frames = f :: fs)
include hf

theorem execMload_of_stack (hst : f.stack = o :: st) (hfit : Fits s f o.toNat 32) :
    execMload s = .next { s with
      frames := { f with
        stack := beWord (f.memory.bytesAt o.toNat 32) :: st
        pc := f.pc + 1
        memory := grown s f o.toNat 32 } :: fs } := by
  rw [execMload, onTop_of_frames hf, hst]
  exact withGrown_proceed hf hfit fun m => m

theorem execMload_underflow (hst : f.stack = []) : execMload s = raise s f .stackUnderflow := by
  rw [execMload, onTop_of_frames hf, hst]

theorem execSha3_of_stack (hst : f.stack = o :: w :: st) (hfit : Fits s f o.toNat w.toNat) :
    execSha3 s = .next { s with
      frames := { f with
        stack := hashWord (f.memory.bytesAt o.toNat w.toNat) :: st
        pc := f.pc + 1
        memory := grown s f o.toNat w.toNat } :: fs } := by
  rw [execSha3, onTop_of_frames hf, hst]
  exact withGrown_proceed hf hfit fun m => m

theorem execSha3_underflow (hlen : f.stack.length < 2) : execSha3 s = raise s f .stackUnderflow := by
  obtain hst | ⟨a, hst⟩ := stack_eq_of_length_lt_two hlen <;>
    rw [execSha3, onTop_of_frames hf, hst]

theorem execMstore_of_stack (hst : f.stack = o :: w :: st) (hfit : Fits s f o.toNat 32) :
    execMstore s = .next { s with
      frames := { f with stack := st, pc := f.pc + 1, memory := written s f o.toNat (bigEndian w) } :: fs } := by
  rw [execMstore, onTop_of_frames hf, hst, written, bigEndian_length, bigEndian_eq]
  exact withGrown_proceed hf hfit fun m => m.store o.toNat (wordBytes w)

theorem execMstore_underflow (hlen : f.stack.length < 2) : execMstore s = raise s f .stackUnderflow := by
  obtain hst | ⟨a, hst⟩ := stack_eq_of_length_lt_two hlen <;>
    rw [execMstore, onTop_of_frames hf, hst]

theorem execMstore8_of_stack (hst : f.stack = o :: w :: st) (hfit : Fits s f o.toNat 1) :
    execMstore8 s = .next { s with
      frames := { f with stack := st, pc := f.pc + 1, memory := written s f o.toNat [w.setWidth 8] } :: fs } := by
  rw [execMstore8, onTop_of_frames hf, hst, written, List.length_singleton, ← ofNat_mod_eq_setWidth]
  exact withGrown_proceed hf hfit fun m => m.store o.toNat [BitVec.ofNat 8 (w.toNat % 256)]

theorem execMstore8_underflow (hlen : f.stack.length < 2) : execMstore8 s = raise s f .stackUnderflow := by
  obtain hst | ⟨a, hst⟩ := stack_eq_of_length_lt_two hlen <;>
    rw [execMstore8, onTop_of_frames hf, hst]

end

/-! ## The obligations -/

/-- Settles O20: both read the bytes before the growth, which changes none of them. -/
theorem memoryReads : Obligations.MemoryReads := by
  unfold Obligations.MemoryReads
  refine ⟨oneByte_of_row (by decide), oneByte_of_row (by decide), fun s f fs hf =>
    ⟨fun o st hst hfit => ?_, fun hst => ?_, fun o n st hst hfit => ?_, fun hlen => ?_⟩⟩
  · exact execMload_of_stack hf hst hfit
  · exact (execMload_underflow hf hst).trans (raise_eq_afterFailure hf _)
  · exact execSha3_of_stack hf hst hfit
  · exact (execSha3_underflow hf hlen).trans (raise_eq_afterFailure hf _)

/-- Settles O21: the model's bytes of a Word, and its byte `w mod 256`, are the bit slices of the statements. -/
theorem memoryWrites : Obligations.MemoryWrites := by
  unfold Obligations.MemoryWrites
  refine ⟨oneByte_of_row (by decide), oneByte_of_row (by decide), fun s f fs hf =>
    ⟨fun o w st hst hfit => ?_, fun o w st hst hfit => ?_, fun hlen => ⟨?_, ?_⟩⟩⟩
  · exact execMstore_of_stack hf hst hfit
  · exact execMstore8_of_stack hf hst hfit
  · exact (execMstore_underflow hf hlen).trans (raise_eq_afterFailure hf _)
  · exact (execMstore8_underflow hf hlen).trans (raise_eq_afterFailure hf _)

end Sys2Proof.Machine
end

section
/-!
PROOFS of the family spec/44_control.md. First the scan of the code, whose other half is `mem_jumpdests`: it visits
every instruction boundary. Then what a jump answers in each of its cases; then the obligations.
-/

namespace Sys2Proof.Machine

open Sys2Proof.Rules

variable {s : State} {f : Frame} {fs : List Frame} {t c : Word} {st : List Word}

/-! ## The scan -/

/-- R245: the scan passes over `skip` bytes and finds nothing in them. -/
theorem scanFrom_skip (skip i : Nat) (bs : Bytes) : scanFrom skip i bs = scanFrom 0 (i + skip) (bs.drop skip) := by
  induction skip generalizing i bs with
  | zero => rfl
  | succ k ih =>
    cases bs with
    | nil => rfl
    | cons _ rest => rw [scanFrom, ih, List.drop_succ_cons, Nat.add_right_comm, Nat.add_assoc]

/-- R245: past an opcode byte the scan goes on behind its immediate bytes. -/
theorem scanFrom_immWidth_subset (op : Byte) (i : Nat) (rest : Bytes) :
    scanFrom (immWidth op) (i + 1) rest ⊆ scanFrom 0 i (op :: rest) := by
  by_cases h5b : op = 0x5b
  · subst h5b
    exact List.subset_cons_self i _
  · rw [scanFrom, if_neg h5b]
    exact List.Subset.refl _

/-- R245: the scan visits every instruction boundary, so what it finds from there on it finds. -/
theorem Boundary.scanFrom_subset {code : Bytes} {p : Nat} (h : Boundary code p) :
    scanFrom 0 p (code.drop p) ⊆ jumpdests code := by
  induction h with
  | start => exact List.Subset.refl _
  | @advance p op _ hop ih =>
    obtain ⟨hlt, hget⟩ := List.getElem?_eq_some_iff.mp hop
    rw [List.drop_eq_getElem_cons hlt, hget] at ih
    rw [← List.drop_drop, ← scanFrom_skip]
    exact List.Subset.trans (scanFrom_immWidth_subset op p _) ih

/-- R245: the scan marks every JUMPDEST byte on a boundary. -/
theorem Boundary.mem_jumpdests {code : Bytes} {p : Nat} (h : Boundary code p) (h5b : code[p]? = some 0x5b) :
    p ∈ jumpdests code := by
  obtain ⟨hlt, hget⟩ := List.getElem?_eq_some_iff.mp h5b
  apply h.scanFrom_subset
  rw [List.drop_eq_getElem_cons hlt, hget]
  exact List.mem_cons_self

/-- Settles O27: the scan marks JUMPDEST bytes on boundaries only, and visits every boundary. -/
theorem jumpTargetsAreBoundaries : Obligations.JumpTargetsAreBoundaries := by
  unfold Obligations.JumpTargetsAreBoundaries
  exact fun code t => ⟨Machine.mem_jumpdests, fun ⟨hb, h5b⟩ => hb.mem_jumpdests h5b⟩

/-! ## The jumps -/

section
variable (hf : s.frames = f :: fs)
include hf

/-- R247: a valid target whose next pc the register holds is gone to. -/
theorem jumpTo_valid (ht : t.toNat ∈ f.jumpdests) (hp : PcFits s (t.toNat + 1)) :
    jumpTo s f t st = .next { s with frames := { f with stack := st, pc := t.toNat + 1 } :: fs } := by
  rw [jumpTo, if_pos ht, if_pos (fitsPc_iff.mpr hp), State.setTop, hf, List.tail_cons]

/-- R246: any other target fails the frame. -/
theorem jumpTo_invalid (ht : t.toNat ∉ f.jumpdests) :
    jumpTo s f t st = .next (afterFailure s f fs .invalidJumpDestination) := by
  rw [jumpTo, if_neg ht, raise_eq_afterFailure hf]

theorem execJump_of_stack (hst : f.stack = t :: st) : execJump s = jumpTo s f t st := by
  rw [execJump, onTop_of_frames hf, hst]

theorem execJump_underflow (hst : f.stack = []) : execJump s = raise s f .stackUnderflow := by
  rw [execJump, onTop_of_frames hf, hst]

/-- R248: JUMPI with a condition that holds is JUMP. -/
theorem execJumpi_taken (hst : f.stack = t :: c :: st) (hc : c ≠ 0) : execJumpi s = jumpTo s f t st := by
  rw [execJumpi, onTop_of_frames hf, hst]
  exact if_pos (decide_eq_true hc)

/-- R248: JUMPI with condition 0 advances, whatever its target. -/
theorem execJumpi_not_taken (hst : f.stack = t :: 0 :: st) : execJumpi s = .next (s.setTop (f.proceed 1 st)) := by
  rw [execJumpi, onTop_of_frames hf, hst]
  exact if_neg (by decide)

theorem execJumpi_underflow (hlen : f.stack.length < 2) : execJumpi s = raise s f .stackUnderflow := by
  obtain hst | ⟨a, hst⟩ := stack_eq_of_length_lt_two hlen <;>
    rw [execJumpi, onTop_of_frames hf, hst]

end

/-- Settles O28: both instructions come to `jumpTo`, by which the target is valid or the frame fails. -/
theorem jumps : Obligations.Jumps := by
  unfold Obligations.Jumps
  refine ⟨oneByte_of_row (by decide), oneByte_of_row (by decide), fun s f fs hf hdests => ?_⟩
  rw [← hdests]
  refine ⟨fun t st hst => ⟨fun ht hp => ?_, fun ht => ?_⟩, fun hst => ?_,
    fun t c st hst => ⟨fun hc => ?_, fun hc ht hp => ?_, fun hc ht => ?_⟩, fun hlen => ?_⟩
  · exact (execJump_of_stack hf hst).trans (jumpTo_valid hf ht hp)
  · exact (execJump_of_stack hf hst).trans (jumpTo_invalid hf ht)
  · exact (execJump_underflow hf hst).trans (raise_eq_afterFailure hf _)
  · subst hc
    exact (execJumpi_not_taken hf hst).trans (by rw [proceed_eq hf])
  · exact (execJumpi_taken hf hst hc).trans (jumpTo_valid hf ht hp)
  · exact (execJumpi_taken hf hst hc).trans (jumpTo_invalid hf ht)
  · exact (execJumpi_underflow hf hlen).trans (raise_eq_afterFailure hf _)

/-! ## The step, STOP and JUMPDEST -/

/-- Settles O6: it is `step_of_instr`. -/
theorem stepExecutesDecoded : Obligations.StepExecutesDecoded := by
  unfold Obligations.StepExecutesDecoded
  exact fun _ _ _ _ _ hrun hd hm hp => step_of_instr hrun hd hm hp

/-- Settles O7: no byte is left to decode, so the fetch halts the frame before it counts anything. -/
theorem endOfCodeHalts : Obligations.EndOfCodeHalts := by
  unfold Obligations.EndOfCodeHalts
  intro s f fs hrun hpc
  have hd : decode (f.code.drop f.pc) = .endOfCode := by rw [List.drop_eq_nil_of_le hpc, decode]
  rw [step, nextPhase_of_running hrun, fetchPhase, hd]
  obtain ⟨-, hf, -⟩ := hrun
  simp only [State.setTop, hf, List.tail_cons, Frame.halt]

theorem execStop_eq (hf : s.frames = f :: fs) :
    execStop s = .next { s with frames := { f with pc := f.pc + 1, status := .halted (.ret []) } :: fs } := by
  rw [execStop, onTop_of_frames hf, State.setTop, hf, List.tail_cons, Frame.halt, Frame.proceed]

theorem plainOp_eq (hf : s.frames = f :: fs) :
    plainOp s = .next { s with frames := { f with pc := f.pc + 1 } :: fs } := by
  rw [plainOp, onTop_of_frames hf, proceed_eq hf]

/-- Settles O26: STOP advances and halts, JUMPDEST runs `plainOp`. -/
theorem stopAndJumpdest : Obligations.StopAndJumpdest := by
  unfold Obligations.StopAndJumpdest
  exact ⟨oneByte_of_row (by decide), oneByte_of_row (by decide), fun _ _ _ hf => ⟨execStop_eq hf, plainOp_eq hf⟩⟩

end Sys2Proof.Machine
end

section
/-!
PROOFS of the family spec/45_environment.md. First the rule of a one-byte push; then what each of the four COPY
instructions answers with its operands on the stack and without them; then the obligations.
-/

namespace Sys2Proof.Machine

open Sys2Proof.Rules

variable {s : State} {f : Frame} {fs : List Frame} {i : Instr} {op : Byte} {d src n : Word} {st : List Word}

/-! ## The context pushes -/

/-- R255: a row of the map that runs `pushOp` obeys the rule of a one-byte push. -/
theorem pushRule_of_exec {v : State → Frame → Option Word} (hrow : (op, i) ∈ opRows)
    (hexec : ∀ s, exec i s = pushOp 1 (v s) s) : PushRule i op v :=
  ⟨oneByte_of_row hrow, pushEffect_of_exec hexec⟩

/-- R238: reducing the memory size before it is narrowed changes nothing. -/
theorem execMsize_eq (s : State) :
    execMsize s = pushOp 1 (fun f => some (BitVec.ofNat 256 (f.memory.size % 2 ^ 256))) s :=
  congrArg (fun v => pushOp 1 v s) (funext fun f => congrArg some (natWord_mod f.memory.size).symm)

/-- Settles O30: each is a row of the map that pushes its register of the block context. -/
theorem blockContextPushes : Obligations.BlockContextPushes := by
  unfold Obligations.BlockContextPushes
  refine ⟨?_, ?_, ?_, ?_, ?_, ?_, ?_⟩ <;>
    exact pushRule_of_exec (by decide) fun _ => rfl

/-- Settles O29: each is a row of the map that pushes the value its rule names; only MSIZE's is written otherwise in
the model, which narrows the size at once. -/
theorem frameContextPushes : Obligations.FrameContextPushes := by
  unfold Obligations.FrameContextPushes
  refine ⟨?address, ?origin, ?caller, ?callvalue, ?gasprice, ?selfbalance, ?msize, ?calldatasize, ?codesize,
    ?returndatasize, ?pc⟩
  case msize => exact pushRule_of_exec (by decide) execMsize_eq
  all_goals exact pushRule_of_exec (by decide) fun _ => rfl

/-! ## The reads of accounts and call data -/

/-- Settles O31: each is a row of the map that runs `unaryOp` on the view its rule names. -/
theorem accountAndCalldataReads : Obligations.AccountAndCalldataReads := by
  unfold Obligations.AccountAndCalldataReads
  refine ⟨?_, ?_, ?_, ?_⟩ <;>
    exact unaryRule_of_exec (by decide) (fun _ => rfl) fun _ _ _ => rfl

/-! ## The COPY instructions -/

/-- R75: within the bounds, an access that stores the `len` bytes `v` and completes its instruction leaves the memory
the statements call `written`. -/
theorem withGrown_store {off len : Nat} {v : Bytes} (hf : s.frames = f :: fs) (hv : v.length = len)
    (hfit : Fits s f off len) :
    withGrown s f off len (fun m => .next (s.setTop { f.proceed 1 st with memory := m.store off v })) =
      .next { s with frames := { f with stack := st, pc := f.pc + 1, memory := written s f off v } :: fs } := by
  subst hv
  exact withGrown_proceed hf hfit fun m => m.store off v

/-- R270: under `fail` a read past the end of the return data is not allowed. -/
theorem returnReadAllowed_eq_false {src len : Nat} (hoob : s.params.returndatacopyOob = .fail)
    (hlen : f.returndata.length < src + len) : returnReadAllowed s.params f src len = false := by
  rw [returnReadAllowed, hoob]
  exact decide_eq_false (Nat.not_le.mpr hlen)

section
variable (hf : s.frames = f :: fs)
include hf

section
variable {buf : Frame → Bytes} {ok : Frame → Nat → Nat → Bool}

theorem copyOp_of_stack (hst : f.stack = d :: src :: n :: st) (hok : ok f src.toNat n.toNat = true)
    (hfit : Fits s f d.toNat n.toNat) :
    copyOp buf ok s = .next { s with
      frames := { f with
        stack := st
        pc := f.pc + 1
        memory := written s f d.toNat (padRead (buf f) src.toNat n.toNat) } :: fs } := by
  rw [copyOp, onTop_of_frames hf, hst]
  exact (if_pos hok).trans (withGrown_store hf (padRead_length ..) hfit)

theorem copyOp_outOfBounds (hst : f.stack = d :: src :: n :: st) (hok : ok f src.toNat n.toNat = false) :
    copyOp buf ok s = .next (afterFailure s f fs .returnDataOutOfBounds) := by
  rw [copyOp, onTop_of_frames hf, hst, ← raise_eq_afterFailure hf]
  exact if_neg (Bool.eq_false_iff.mp hok)

theorem copyOp_underflow (hlen : f.stack.length < 3) :
    copyOp buf ok s = .next (afterFailure s f fs .stackUnderflow) := by
  rw [copyOp, onTop_of_frames hf, ← raise_eq_afterFailure hf]
  match hst : f.stack with
  | [] | [_] | [_, _] => rfl
  | _ :: _ :: _ :: _ => rw [hst, List.length_cons, List.length_cons, List.length_cons] at hlen; omega

end

theorem execExtcodecopy_of_stack {a : Word} (hst : f.stack = a :: d :: src :: n :: st)
    (hfit : Fits s f d.toNat n.toNat) :
    execExtcodecopy s = .next { s with
      frames := { f with
        stack := st
        pc := f.pc + 1
        memory := written s f d.toNat (padRead (codeOf s.world (toAddr a)) src.toNat n.toNat) } :: fs } := by
  rw [execExtcodecopy, onTop_of_frames hf, hst]
  exact withGrown_store hf (padRead_length ..) hfit

theorem execExtcodecopy_underflow (hlen : f.stack.length < 4) :
    execExtcodecopy s = .next (afterFailure s f fs .stackUnderflow) := by
  rw [execExtcodecopy, onTop_of_frames hf, ← raise_eq_afterFailure hf]
  match hst : f.stack with
  | [] | [_] | [_, _] | [_, _, _] => rfl
  | _ :: _ :: _ :: _ :: _ => simp only [hst, List.length_cons] at hlen; omega

end

/-- Settles O22: CALLDATACOPY and CODECOPY run `copyOp` on a buffer of the frame that may be read anywhere;
EXTCODECOPY, with one operand more, stores in the same way. -/
theorem copyInstructions : Obligations.CopyInstructions := by
  unfold Obligations.CopyInstructions
  refine ⟨oneByte_of_row (by decide), oneByte_of_row (by decide), oneByte_of_row (by decide), fun s f fs hf =>
    ⟨fun d src n st hst hfit => ⟨?_, ?_⟩, fun hlen => ⟨?_, ?_⟩, fun a d src n st hst hfit => ?_, fun hlen => ?_⟩⟩
  · exact copyOp_of_stack (buf := Frame.calldata) (ok := fun _ _ _ => true) hf hst rfl hfit
  · exact copyOp_of_stack (buf := Frame.code) (ok := fun _ _ _ => true) hf hst rfl hfit
  · exact copyOp_underflow (buf := Frame.calldata) (ok := fun _ _ _ => true) hf hlen
  · exact copyOp_underflow (buf := Frame.code) (ok := fun _ _ _ => true) hf hlen
  · exact execExtcodecopy_of_stack hf hst hfit
  · exact execExtcodecopy_underflow hf hlen

/-- Settles O23: RETURNDATACOPY runs `copyOp`, and the two settings decide whether its read is allowed. -/
theorem returnDataCopy : Obligations.ReturnDataCopy := by
  unfold Obligations.ReturnDataCopy
  refine ⟨oneByte_of_row (by decide), fun s f fs hf =>
    ⟨fun d src n st hst hread hfit => ?_, fun d src n st hst hoob hlen => ?_, fun hlen => ?_⟩⟩
  · exact copyOp_of_stack hf hst (returnReadAllowed_eq_true hread) hfit
  · exact copyOp_outOfBounds hf hst (returnReadAllowed_eq_false hoob hlen)
  · exact copyOp_underflow hf hlen

end Sys2Proof.Machine
end

section
/-!
PROOFS of the family spec/46_storage_log.md. What SLOAD, SSTORE and the shared LOG operation answer in each of their
cases, in the order of their checks (R353): the operands, static mode, the frame's address, then the memory access. Then
the obligations.
-/

namespace Sys2Proof.Machine

open Sys2Proof.Rules

variable {s : State} {f : Frame} {fs : List Frame} {i : Instr} {n : Nat} {A : Addr} {k v o w : Word}
  {topics st : List Word}

/-- A stack with two operands, in the shape that the instructions match. -/
theorem exists_stack_of_two_le_length (h : 2 ≤ st.length) : ∃ a b rest, st = a :: b :: rest := by
  match st with
  | [] | [_] => simp at h
  | a :: b :: rest => exact ⟨a, b, rest, rfl⟩

section
variable (hf : s.frames = f :: fs)
include hf

/-! ## SLOAD -/

theorem execSload_of_stack (hst : f.stack = k :: st) (hA : f.address = some A) :
    execSload s = .next { s with
      frames := { f with stack := storageAt s.world A k :: st, pc := f.pc + 1 } :: fs } := by
  simp only [execSload, onTop_of_frames hf, hst, hA, proceed_eq hf]

theorem execSload_underflow (hst : f.stack = []) : execSload s = .next (afterFailure s f fs .stackUnderflow) := by
  rw [execSload, onTop_of_frames hf, hst, ← raise_eq_afterFailure hf]

theorem execSload_no_address (hst : f.stack ≠ []) (hA : f.address = none) :
    execSload s = .next (afterFailure s f fs .missingContextField) := by
  obtain ⟨k, st, hst⟩ := List.exists_cons_of_ne_nil hst
  simp only [execSload, onTop_of_frames hf, hst, hA, raise_eq_afterFailure hf]

/-! ## SSTORE -/

theorem execSstore_of_stack (hst : f.stack = k :: v :: st) (hs : f.isStatic = false) (hA : f.address = some A) :
    execSstore s = .next { s with
      world := sstore s.world A k v
      frames := { f with stack := st, pc := f.pc + 1 } :: fs } := by
  simp only [execSstore, onTop_of_frames hf, hst, hs, hA, Bool.false_eq_true, if_false, proceed_eq hf]

theorem execSstore_underflow (hlen : f.stack.length < 2) :
    execSstore s = .next (afterFailure s f fs .stackUnderflow) := by
  obtain hst | ⟨a, hst⟩ := stack_eq_of_length_lt_two hlen <;>
    rw [execSstore, onTop_of_frames hf, hst, ← raise_eq_afterFailure hf]

theorem execSstore_static (hlen : 2 ≤ f.stack.length) (hs : f.isStatic = true) :
    execSstore s = .next (afterFailure s f fs .staticViolation) := by
  obtain ⟨k, v, st, hst⟩ := exists_stack_of_two_le_length hlen
  simp only [execSstore, onTop_of_frames hf, hst, hs, if_true, raise_eq_afterFailure hf]

theorem execSstore_no_address (hlen : 2 ≤ f.stack.length) (hs : f.isStatic = false) (hA : f.address = none) :
    execSstore s = .next (afterFailure s f fs .missingContextField) := by
  obtain ⟨k, v, st, hst⟩ := exists_stack_of_two_le_length hlen
  simp only [execSstore, onTop_of_frames hf, hst, hs, hA, Bool.false_eq_true, if_false, raise_eq_afterFailure hf]

/-! ## The shared LOG operation -/

/-- R292, D38: the topics are the `n` Words under the offset and the size, in pop order. -/
theorem logOp_of_stack (hst : f.stack = o :: w :: (topics ++ st)) (hn : topics.length = n) (hs : f.isStatic = false)
    (hA : f.address = some A) (hfit : Fits s f o.toNat w.toNat) :
    logOp n s = .next { s with
      logs := s.logs ++ [{ address := A, data := f.memory.bytesAt o.toNat w.toNat, topics := topics }]
      frames := { f with stack := st, pc := f.pc + 1, memory := grown s f o.toNat w.toNat } :: fs } := by
  have hlen : ¬(topics ++ st).length < n := by simp [hn]
  have htake : (topics ++ st).take n = topics := List.take_left' hn
  have hdrop : (topics ++ st).drop n = st := List.drop_left' hn
  simp only [logOp, onTop_of_frames hf, hst, if_neg hlen, hs, hA, Bool.false_eq_true, if_false, htake, hdrop,
    withGrown_eq_grown hfit, State.setTop, hf, List.tail_cons, Frame.proceed]

/-- R292: too few Words for the offset and the size, or too few under them for the topics. -/
theorem logOp_underflow (hlen : f.stack.length < n + 2) :
    logOp n s = .next (afterFailure s f fs .stackUnderflow) := by
  rw [logOp, onTop_of_frames hf, ← raise_eq_afterFailure hf]
  match hst : f.stack with
  | [] | [_] => rfl
  | _ :: _ :: st =>
    have htopics : st.length < n := by simpa [hst] using hlen
    exact if_pos htopics

/-- R353, D14: with its operands on the stack, LOG fails in static mode first. -/
theorem logOp_static (hlen : n + 2 ≤ f.stack.length) (hs : f.isStatic = true) :
    logOp n s = .next (afterFailure s f fs .staticViolation) := by
  obtain ⟨o, w, st, hst⟩ := exists_stack_of_two_le_length (Nat.le_of_add_left_le hlen)
  have htopics : ¬st.length < n := by simpa [hst] using hlen
  simp only [logOp, onTop_of_frames hf, hst, if_neg htopics, hs, if_true, raise_eq_afterFailure hf]

theorem logOp_no_address (hlen : n + 2 ≤ f.stack.length) (hs : f.isStatic = false) (hA : f.address = none) :
    logOp n s = .next (afterFailure s f fs .missingContextField) := by
  obtain ⟨o, w, st, hst⟩ := exists_stack_of_two_le_length (Nat.le_of_add_left_le hlen)
  have htopics : ¬st.length < n := by simpa [hst] using hlen
  simp only [logOp, onTop_of_frames hf, hst, if_neg htopics, hs, hA, Bool.false_eq_true, if_false,
    raise_eq_afterFailure hf]

end

/-- R292: a row of the map that runs `logOp n` obeys the rule of LOGn. -/
theorem logRule_of_exec (hrow : (BitVec.ofNat 8 (0xa0 + n), i) ∈ opRows) (hexec : ∀ s, exec i s = logOp n s) :
    LogRule i n := by
  refine ⟨oneByte_of_row hrow, fun s f fs hf => ?_⟩
  rw [hexec]
  exact ⟨fun o size topics st A hst hn hs hA hfit => logOp_of_stack hf hst hn hs hA hfit, logOp_underflow hf,
    logOp_static hf, logOp_no_address hf⟩

/-! ## The obligations -/

/-- Settles O32: one lemma for each answer of the two instructions. -/
theorem storageInstructions : Obligations.StorageInstructions := by
  unfold Obligations.StorageInstructions
  refine ⟨oneByte_of_row (by decide), oneByte_of_row (by decide), fun s f fs hf =>
    ⟨fun k st A hst hA => ?_, fun hst => ?_, fun hst hA => ?_, fun k v st A hst hs hA => ?_, fun hlen => ?_,
      fun hlen hs => ?_, fun hlen hs hA => ?_⟩⟩
  · exact execSload_of_stack hf hst hA
  · exact execSload_underflow hf hst
  · exact execSload_no_address hf hst hA
  · exact execSstore_of_stack hf hst hs hA
  · exact execSstore_underflow hf hlen
  · exact execSstore_static hf hlen hs
  · exact execSstore_no_address hf hlen hs hA

/-- Settles O35: each of the five is a row of the map that runs `logOp` with its own number of topics. -/
theorem logInstructions : Obligations.LogInstructions := by
  unfold Obligations.LogInstructions
  refine ⟨?_, ?_, ?_, ?_, ?_⟩ <;>
    exact logRule_of_exec (by decide) fun _ => rfl

end Sys2Proof.Machine
end

section
/-!
PROOFS of the family spec/47_call_create.md. First what a call or a creation comes to: no frame (R313), or the child and
the suspended parent (R306, R314); then the instructions that halt their frame; then the return of a child and the end of
a run, each as the step of a halted frame. Each obligation stands after the lemmas it uses.
-/

namespace Sys2Proof.Machine

open Sys2Proof.Rules

variable {s t : State} {f k p : Frame} {fs : List Frame} {o : HaltOutcome} {snap : Snapshot} {c : CallOperands}
  {A N : Addr} {v b off size outOff outSize : Word} {st : List Word}

/-- A stack with three operands, in the shape that CREATE matches. -/
theorem exists_stack_of_three_le_length (h : 3 ≤ st.length) : ∃ a b c rest, st = a :: b :: c :: rest := by
  match st with
  | [] | [_] | [_, _] => simp at h
  | a :: b :: c :: rest => exact ⟨a, b, c, rest, rfl⟩

/-! ## The common steps of a call -/

/-- R310 to R312: each of the three reasons blocks a call. -/
theorem callBlocked_eq_some
    (h : codeOf s.world (toAddr c.target) = [] ∨ s.params.depthLimit < p.depth + 1 ∨
      ∃ A, p.address = some A ∧ (balanceOf s.world A).toNat < c.value.toNat) :
    ∃ reason, callBlocked s p c = some reason := by
  unfold callBlocked
  split_ifs with hcode hdepth hshort
  · exact ⟨_, rfl⟩
  · exact ⟨_, rfl⟩
  · exact ⟨_, rfl⟩
  · obtain hnil | hlt | ⟨A, hA, hlt⟩ := h
    · exact absurd (List.length_eq_zero_iff.mpr hnil) hcode
    · exact absurd hlt hdepth
    · have hne : c.value ≠ 0 := fun h0 => by simp [h0] at hlt
      exact absurd ⟨hne, by rw [hA, fallsShort, decide_eq_true hlt]⟩ hshort

/-- R312: a transfer that moves something. -/
theorem transfer_of_ne_zero {payer : Option Addr} {T : Addr} (w : World) (hA : payer = some A) (hv : v ≠ 0) :
    transfer w payer T v = credit (debit w A v) T v := by
  simp only [hA, transfer, if_neg hv]

/-- R306: in the terms of the statements, the frame of a child of `p`. -/
theorem freshFrame_eq_childFrame (s : State) (p : Frame) (code : Bytes) (address caller : Option Addr)
    (value : Option Word) (calldata : Bytes) (isStatic : Bool) (kind : FrameKind) :
    freshFrame code address caller value calldata isStatic (p.depth + 1) (snapshotOf s) kind =
      childFrame s p code address caller value calldata isStatic kind := rfl

/-- R314: the frames after a call with the operands `c` has entered the child of the column `child`: the child, the
suspended parent, and the frames under it. -/
def framesAfterCall (s : State) (p : Frame) (fs : List Frame) (c : CallOperands) (child : ChildContext) : List Frame :=
  childFrame s p (codeOf s.world (toAddr c.target)) child.address child.caller child.value
      (p.memory.bytesAt c.inOff.toNat c.inSize.toNat) child.isStatic child.kind ::
    { p with stack := c.rest, pc := p.pc + 1, memory := grown s p c.inOff.toNat c.inSize.toNat } :: fs

section
variable (hf : s.frames = p :: fs)
include hf

/-- R313: in the terms of the statements, a completion without a frame. -/
theorem withoutFrame_eq (rest : List Word) :
    withoutFrame s p rest = .next { s with frames := noFrame p rest :: fs } := by
  rw [withoutFrame, State.setTop, hf, List.tail_cons, Frame.proceed, noFrame]

/-- R310 to R313: a call that one of the three reasons blocks. -/
theorem callOp_without_frame (child : ChildContext)
    (h : codeOf s.world (toAddr c.target) = [] ∨ s.params.depthLimit < p.depth + 1 ∨
      ∃ A, p.address = some A ∧ (balanceOf s.world A).toNat < c.value.toNat) :
    callOp s p c child = .next { s with frames := noFrame p c.rest :: fs } := by
  obtain ⟨_, hb⟩ := callBlocked_eq_some h
  simp only [callOp, hb, withoutFrame_eq hf]

/-- R306, R314: a call that nothing blocks moves its value and enters the child of its column. -/
theorem callOp_enters (child : ChildContext) (hcode : codeOf s.world (toAddr c.target) ≠ [])
    (hd : p.depth + 1 ≤ s.params.depthLimit)
    (hv : c.value = 0 ∨ ∃ A, p.address = some A ∧ c.value.toNat ≤ (balanceOf s.world A).toNat)
    (hfit : Fits s p c.inOff.toNat c.inSize.toNat) :
    callOp s p c child = .next { s with
      world := transfer s.world p.address (toAddr c.target) c.value
      frames := framesAfterCall s p fs c child } := by
  simp only [callOp, callBlocked_eq_none hcode hd hv, withGrown_eq_grown hfit, freshFrame_eq_childFrame, hf,
    List.tail_cons, Frame.proceed, framesAfterCall]

/-- R312: a call of value 0 leaves the world as it is. -/
theorem callOp_enters_of_value_zero (child : ChildContext) (hcode : codeOf s.world (toAddr c.target) ≠ [])
    (hd : p.depth + 1 ≤ s.params.depthLimit) (hv : c.value = 0) (hfit : Fits s p c.inOff.toNat c.inSize.toNat) :
    callOp s p c child = .next { s with frames := framesAfterCall s p fs c child } := by
  rw [callOp_enters hf child hcode hd (.inl hv) hfit, hv, transfer_zero]

/-- R318: a CALL that passes the checks of R314 parts 2 and 3. -/
theorem execCall_eq_callOp (hpop : popCall s.params.callHasGasOperand p.stack = some c)
    (hv : c.value = 0 ∨ p.isStatic = false ∧ p.address ≠ none) :
    execCall s = callOp s p c
      { address := some (toAddr c.target), caller := p.address, value := some c.value, isStatic := p.isStatic
        kind := .call c.outOff c.outSize } := by
  have hstatic : ¬(p.isStatic = true ∧ c.value ≠ 0) := fun ⟨hs, hne⟩ =>
    Bool.false_ne_true ((hv.resolve_left hne).1.symm.trans hs)
  have haddr : ¬(c.value ≠ 0 ∧ p.address = none) := fun ⟨hne, hnone⟩ => (hv.resolve_left hne).2 hnone
  simp only [execCall, onTop_of_frames hf, hpop, if_neg hstatic, if_neg haddr]

theorem execDelegatecall_eq_callOp (hpop : popCallNoValue s.params.callHasGasOperand p.stack = some c) :
    execDelegatecall s = callOp s p c
      { address := p.address, caller := p.caller, value := p.value, isStatic := p.isStatic
        kind := .delegateCall c.outOff c.outSize } := by
  simp only [execDelegatecall, onTop_of_frames hf, hpop]

theorem execStaticcall_eq_callOp (hpop : popCallNoValue s.params.callHasGasOperand p.stack = some c) :
    execStaticcall s = callOp s p c
      { address := some (toAddr c.target), caller := p.address, value := some 0, isStatic := true
        kind := .staticCall c.outOff c.outSize } := by
  simp only [execStaticcall, onTop_of_frames hf, hpop]

end

/-- Settles O36: the operands are read off the stack, nothing blocks the call, and its column fills the child. -/
theorem callEntersChild : Obligations.CallEntersChild := by
  unfold Obligations.CallEntersChild
  refine ⟨oneByte_of_row (by decide), oneByte_of_row (by decide), oneByte_of_row (by decide),
    fun s p fs g a v inOff inSize outOff outSize st hf hcode hd hfit => ⟨fun hst => ?_, fun hst => ?_⟩⟩
  · have hpop := popCall_callStack s g a v inOff inSize outOff outSize st
    rw [← hst] at hpop
    refine ⟨fun hv => ?_, fun A hne hs hA hle => ?_⟩
    · exact (execCall_eq_callOp hf hpop (.inl hv)).trans (callOp_enters_of_value_zero hf _ hcode hd hv hfit)
    · have hpaid : p.isStatic = false ∧ p.address ≠ none := ⟨hs, by simp [hA]⟩
      rw [← transfer_of_ne_zero _ hA hne]
      exact (execCall_eq_callOp hf hpop (.inr hpaid)).trans (callOp_enters hf _ hcode hd (.inr ⟨A, hA, hle⟩) hfit)
  · have hpop := popCallNoValue_callStack s g a inOff inSize outOff outSize st
    rw [← hst] at hpop
    exact ⟨(execDelegatecall_eq_callOp hf hpop).trans (callOp_enters_of_value_zero hf _ hcode hd rfl hfit),
      (execStaticcall_eq_callOp hf hpop).trans (callOp_enters_of_value_zero hf _ hcode hd rfl hfit)⟩

/-! ## CREATE -/

/-- R321 parts 5 and 6: what lets a CREATE enter its child. -/
theorem createBlocked_eq_none (hd : p.depth + 1 ≤ s.params.depthLimit) (hv : v.toNat ≤ (balanceOf s.world A).toNat) :
    createBlocked s p A v = none := by
  rw [createBlocked, if_neg (Nat.not_lt.mpr hd), if_neg (Nat.not_lt.mpr hv)]

theorem createBlocked_eq_some
    (h : s.params.depthLimit < p.depth + 1 ∨ (balanceOf s.world A).toNat < v.toNat) :
    ∃ reason, createBlocked s p A v = some reason := by
  unfold createBlocked
  split_ifs with hd hv
  · exact ⟨_, rfl⟩
  · exact ⟨_, rfl⟩
  · exact absurd h (not_or.mpr ⟨hd, hv⟩)

section
variable (hf : s.frames = p :: fs)
include hf

theorem execCreate_underflow (hlen : p.stack.length < 3) :
    execCreate s = .next (afterFailure s p fs .stackUnderflow) := by
  rw [execCreate, onTop_of_frames hf, ← raise_eq_afterFailure hf]
  match hst : p.stack with
  | [] | [_] | [_, _] => rfl
  | _ :: _ :: _ :: _ => simp only [hst, List.length_cons] at hlen; omega

theorem execCreate_static (hlen : 3 ≤ p.stack.length) (hs : p.isStatic = true) :
    execCreate s = .next (afterFailure s p fs .staticViolation) := by
  obtain ⟨v, off, size, st, hst⟩ := exists_stack_of_three_le_length hlen
  simp only [execCreate, onTop_of_frames hf, hst, hs, if_true, raise_eq_afterFailure hf]

theorem execCreate_no_address (hlen : 3 ≤ p.stack.length) (hs : p.isStatic = false) (hA : p.address = none) :
    execCreate s = .next (afterFailure s p fs .missingContextField) := by
  obtain ⟨v, off, size, st, hst⟩ := exists_stack_of_three_le_length hlen
  simp only [execCreate, onTop_of_frames hf, hst, hs, hA, Bool.false_eq_true, if_false, raise_eq_afterFailure hf]

theorem execCreate_of_blocked {reason : NoFrameReason} (hst : p.stack = v :: off :: size :: st)
    (hs : p.isStatic = false) (hA : p.address = some A) (hb : createBlocked s p A v = some reason) :
    execCreate s = .next { s with frames := noFrame p st :: fs } := by
  simp only [execCreate, onTop_of_frames hf, hst, hs, hA, hb, Bool.false_eq_true, if_false, withoutFrame_eq hf]

/-- R321 parts 7 to 13: a CREATE that is not blocked counts the nonce, places the account and enters its code. -/
theorem execCreate_enters (hst : p.stack = v :: off :: size :: st) (hs : p.isStatic = false) (hA : p.address = some A)
    (hb : createBlocked s p A v = none) (hfit : Fits s p off.toNat size.toNat)
    (hN : N = Config.createAddress A (nonceOf s A)) :
    execCreate s = .next { s with
      nonce := mapWrite 0 s.nonce A.toNat (nonceOf s A + 1)
      world := createAccount s.world A N v
      frames :=
        childFrame s p (p.memory.bytesAt off.toNat size.toNat) (some N) (some A) (some v) [] false (.create N v) ::
          { p with stack := st, pc := p.pc + 1, memory := grown s p off.toNat size.toNat } :: fs } := by
  subst hN
  simp only [execCreate, onTop_of_frames hf, hst, hs, hA, hb, Bool.false_eq_true, if_false, withGrown_eq_grown hfit,
    freshFrame_eq_childFrame, hf, List.tail_cons, Frame.proceed]

end

/-- Settles O38: one lemma for each answer of CREATE. -/
theorem createEntersChild : Obligations.CreateEntersChild := by
  unfold Obligations.CreateEntersChild
  refine ⟨oneByte_of_row (by decide), fun s p fs hf => ⟨execCreate_underflow hf, execCreate_static hf,
    execCreate_no_address hf, fun v off size st A N hst hs hA hd hv hfit hN => ?_⟩⟩
  exact execCreate_enters hf hst hs hA (createBlocked_eq_none hd hv) hfit hN

/-- Settles O37: each reason blocks the call or the creation, and what is blocked completes without a frame. -/
theorem noFrameOutcomes : Obligations.NoFrameOutcomes := by
  unfold Obligations.NoFrameOutcomes
  refine fun s p fs g a v inOff inSize outOff outSize st hf =>
    ⟨fun hst hv hreason => ?_, fun hst hreason => ?_, fun A hst hs hA hreason => ?_⟩
  · have hpop := popCall_callStack s g a v inOff inSize outOff outSize st
    rw [← hst] at hpop
    exact (execCall_eq_callOp hf hpop hv).trans (callOp_without_frame hf _ hreason)
  · have hpop := popCallNoValue_callStack s g a inOff inSize outOff outSize st
    rw [← hst] at hpop
    exact ⟨(execDelegatecall_eq_callOp hf hpop).trans (callOp_without_frame hf _ (hreason.imp_right .inl)),
      (execStaticcall_eq_callOp hf hpop).trans (callOp_without_frame hf _ (hreason.imp_right .inl))⟩
  · obtain ⟨_, hb⟩ := createBlocked_eq_some hreason
    exact execCreate_of_blocked hf hst hs hA hb

/-! ## RETURN, REVERT and SELFDESTRUCT -/

/-- R47: what is marked after an address is marked. -/
theorem mem_addrInsert_iff {B : Addr} {marked : List Addr} : B ∈ addrInsert A marked ↔ B = A ∨ B ∈ marked := by
  refine ⟨mem_addrInsert, fun h => ?_⟩
  induction marked with
  | nil => simpa [addrInsert] using h
  | cons C rest ih =>
    unfold addrInsert
    split_ifs with hlt heq
    · exact List.mem_cons.mpr h
    · subst heq
      exact h.elim (fun hB => hB ▸ List.mem_cons_self) id
    · obtain hB | hB := h
      · exact List.mem_cons_of_mem _ (ih (.inl hB))
      · exact (List.mem_cons.mp hB).elim (fun hC => hC ▸ List.mem_cons_self)
          fun hrest => List.mem_cons_of_mem _ (ih (.inr hrest))

section
variable (hf : s.frames = f :: fs)
include hf

theorem haltWithOutput_of_stack {outcome : Bytes → HaltOutcome} (hst : f.stack = off :: size :: st)
    (hfit : Fits s f off.toNat size.toNat) :
    haltWithOutput outcome s = .next { s with
      frames := { f with
        stack := st
        pc := f.pc + 1
        memory := grown s f off.toNat size.toNat
        status := .halted (outcome (f.memory.bytesAt off.toNat size.toNat)) } :: fs } := by
  simp only [haltWithOutput, onTop_of_frames hf, hst, withGrown_eq_grown hfit, State.setTop, hf, List.tail_cons,
    Frame.proceed, Frame.halt]

theorem haltWithOutput_underflow {outcome : Bytes → HaltOutcome} (hlen : f.stack.length < 2) :
    haltWithOutput outcome s = .next (afterFailure s f fs .stackUnderflow) := by
  obtain hst | ⟨a, hst⟩ := stack_eq_of_length_lt_two hlen <;>
    rw [haltWithOutput, onTop_of_frames hf, hst, ← raise_eq_afterFailure hf]

theorem execSelfdestruct_of_stack (hst : f.stack = b :: st) (hs : f.isStatic = false) (hA : f.address = some A) :
    execSelfdestruct s = .next { s with
      world := credit (debit s.world A (balanceOf s.world A)) (toAddr b) (balanceOf s.world A)
      destruct := addrInsert A s.destruct
      frames := { f with stack := st, pc := f.pc + 1, status := .halted (.ret []) } :: fs } := by
  simp only [execSelfdestruct, onTop_of_frames hf, hst, hs, hA, Bool.false_eq_true, if_false, State.setTop, hf,
    List.tail_cons, Frame.proceed, Frame.halt]

theorem execSelfdestruct_underflow (hst : f.stack = []) :
    execSelfdestruct s = .next (afterFailure s f fs .stackUnderflow) := by
  rw [execSelfdestruct, onTop_of_frames hf, hst, ← raise_eq_afterFailure hf]

theorem execSelfdestruct_static (hst : f.stack ≠ []) (hs : f.isStatic = true) :
    execSelfdestruct s = .next (afterFailure s f fs .staticViolation) := by
  obtain ⟨b, st, hst⟩ := List.exists_cons_of_ne_nil hst
  simp only [execSelfdestruct, onTop_of_frames hf, hst, hs, if_true, raise_eq_afterFailure hf]

theorem execSelfdestruct_no_address (hst : f.stack ≠ []) (hs : f.isStatic = false) (hA : f.address = none) :
    execSelfdestruct s = .next (afterFailure s f fs .missingContextField) := by
  obtain ⟨b, st, hst⟩ := List.exists_cons_of_ne_nil hst
  simp only [execSelfdestruct, onTop_of_frames hf, hst, hs, hA, Bool.false_eq_true, if_false, raise_eq_afterFailure hf]

end

/-- Settles O41: both run `haltWithOutput`, each with its own outcome. -/
theorem returnAndRevert : Obligations.ReturnAndRevert := by
  unfold Obligations.ReturnAndRevert
  refine ⟨oneByte_of_row (by decide), oneByte_of_row (by decide), fun s f fs hf =>
    ⟨fun off size st hst hfit => ⟨?_, ?_⟩, fun hlen => ⟨?_, ?_⟩⟩⟩
  · exact haltWithOutput_of_stack (outcome := .ret) hf hst hfit
  · exact haltWithOutput_of_stack (outcome := .revert) hf hst hfit
  · exact haltWithOutput_underflow (outcome := .ret) hf hlen
  · exact haltWithOutput_underflow (outcome := .revert) hf hlen

/-- Settles O42: one lemma for each answer of SELFDESTRUCT, and one for the set of the marked accounts. -/
theorem selfdestructRule : Obligations.SelfdestructRule := by
  unfold Obligations.SelfdestructRule
  refine ⟨oneByte_of_row (by decide), fun s f fs hf => ⟨execSelfdestruct_underflow hf, execSelfdestruct_static hf,
    execSelfdestruct_no_address hf, fun b st A hst hs hA => ?_⟩, fun A B marked => mem_addrInsert_iff⟩
  exact execSelfdestruct_of_stack hf hst hs hA

/-! ## The return of a child -/

/-- R308: the step of a halted child is its return transition. -/
theorem step_of_halted_child (hr : s.runStatus = .running) (hf : s.frames = k :: p :: fs)
    (hst : k.status = .halted o) : step s = returnTransition s o k p fs := by
  simp only [step, nextPhase, runPhase, hr, hf, hst]

/-- R308: the three calls return alike. -/
theorem returnTransition_call
    (hk : k.kind = .call outOff outSize ∨ k.kind = .delegateCall outOff outSize ∨ k.kind = .staticCall outOff outSize) :
    returnTransition s o k p fs = callReturn s o k.snapshot outOff outSize p fs := by
  rcases hk with hk | hk | hk <;> simp only [returnTransition, hk]

theorem returnTransition_create (hk : k.kind = .create N v) :
    returnTransition s o k p fs = createReturn s o k.snapshot N v p fs := by
  simp only [returnTransition, hk]

/-- R316, R317: within the bounds, the parent of a call resumes with the output stored. -/
theorem callReturn_of_fits (hfit : Fits s p outOff.toNat outSize.toNat) :
    callReturn s o snap outOff outSize p fs = .next { settle s o snap with
      frames := { p with
        stack := o.flag :: p.stack
        returndata := o.output
        memory := written s p outOff.toNat (padRead o.output 0 outSize.toNat) } :: fs } := by
  rw [callReturn, withGrown_eq_grown hfit, written, padRead_length]

/-- Settles O39: the step is the return of a call's child; what is left to read off is `settle` and the flag. -/
theorem callReturns : Obligations.CallReturns := by
  unfold Obligations.CallReturns
  intro s k p fs outOff outSize hr hf hk hfit
  have hstep {o : HaltOutcome} (hst : k.status = .halted o) :=
    (step_of_halted_child hr hf hst).trans ((returnTransition_call hk).trans (callReturn_of_fits hfit))
  exact ⟨fun out hst => hstep hst, fun out hst => hstep hst, fun kind hst => hstep hst⟩

/-- A second write at a key replaces the first. -/
theorem mapPut_mapPut {α : Type} (m : SMap α) (i : Nat) (x y : α) : mapPut (mapPut m i x) i y = mapPut m i y := by
  induction m with
  | nil => simp [mapPut]
  | cons e rest ih =>
    obtain ⟨j, z⟩ := e
    by_cases hlt : i < j
    · simp [mapPut, hlt]
    · by_cases heq : i = j
      · simp [mapPut, heq]
      · simp [mapPut, hlt, heq, ih]

/-- R321: the code and the balance of a created account are one write. -/
theorem deploy_eq (w : World) (N : Addr) (v : Word) (out : Bytes) :
    deploy w N v out = putAccount w N { accountAt w N with balance := v, code := out } := by
  rw [deploy, setBalance, setCode, accountAt_putAccount, if_pos rfl, putAccount, putAccount, mapPut_mapPut, putAccount]

/-- Settles O40: the step is the return of a CREATE's child, by its outcome. -/
theorem createReturns : Obligations.CreateReturns := by
  unfold Obligations.CreateReturns
  intro s k p fs N v hr hf hk
  have hstep {o : HaltOutcome} (hst : k.status = .halted o) :=
    (step_of_halted_child hr hf hst).trans (returnTransition_create hk)
  refine ⟨fun out hst => ?_, fun out hst => hstep hst, fun kind hst => hstep hst⟩
  rw [hstep hst, createReturn, deploy_eq]
  rfl

/-! ## The end of a run -/

/-- R325: the step of a halted top-level frame ends the run. -/
theorem step_of_halted_top (hr : s.runStatus = .running) (hf : s.frames = [f]) (hst : f.status = .halted o) :
    step s = .next (finish s o f) := by
  simp only [step, nextPhase, runPhase, hr, hf, hst]

/-- R325: the accounts that are left are those not marked. -/
theorem mapGet_removeAll (w : World) (marked : List Addr) (A : Addr) :
    mapGet (removeAll w marked) A.toNat = if A ∈ marked then none else mapGet w A.toNat := by
  unfold removeAll
  induction marked generalizing w with
  | nil => simp
  | cons B rest ih =>
    rw [List.foldl_cons, ih, mapGet_mapErase]
    simp only [toNat_inj_addr, List.mem_cons]
    by_cases hrest : A ∈ rest
    · simp only [hrest, or_true, if_true]
    · simp only [hrest, or_false, if_false]

/-- R341: the table of the failure codes. -/
def failureCodes : List (FailureKind × Nat) :=
  [(.stackUnderflow, 1), (.stackOverflow, 2), (.invalidJumpDestination, 3), (.unknownOpcode, 4), (.staticViolation, 5),
    (.missingContextField, 6), (.callTargetNotFound, 7), (.depthLimitExceeded, 8), (.returnDataOutOfBounds, 9)]

theorem code_of_mem_failureCodes : ∀ row ∈ failureCodes, row.1.code = row.2 := by decide

/-- Settles O43: the step is `finish`, by the outcome of the top-level frame. -/
theorem runEnds : Obligations.RunEnds := by
  unfold Obligations.RunEnds
  intro s f hr hf
  refine ⟨fun out hst => ⟨removeAll s.world s.destruct, mapGet_removeAll s.world s.destruct, ?_⟩,
    fun out hst => ⟨Config.freeResultStack s.freeCount, ?_⟩,
    fun kind code hcode hst => ⟨Config.freeResultStack s.freeCount, ?_⟩⟩
  · exact step_of_halted_top hr hf hst
  · exact step_of_halted_top hr hf hst
  · obtain rfl : kind.code = code := code_of_mem_failureCodes _ hcode
    exact step_of_halted_top hr hf hst

/-! ## A child that did not succeed -/

/-- R316: a child that did not succeed is rolled back, its flag is 0, and what it delivers is the bytes of a revert. -/
theorem settle_of_not_ret (ho : ∀ out, o ≠ .ret out) :
    settle s o snap = rollback s snap ∧ o.flag = 0 ∧ (∀ out, o = .revert out → o.output = out) ∧
      ∀ kind, o = .fail kind → o.output = [] := by
  cases o with
  | ret out => exact absurd rfl (ho out)
  | revert out => exact ⟨rfl, rfl, fun _ h => HaltOutcome.revert.inj h, nofun⟩
  | fail kind => exact ⟨rfl, rfl, nofun, fun _ _ => rfl⟩

/-- R321: the return of a CREATE's child that did not succeed, for both of its outcomes. -/
theorem createReturn_of_not_ret (ho : ∀ out, o ≠ .ret out) :
    createReturn s o snap N v p fs = .next { rollback s snap with
      frames := { p with returndata := o.output, stack := 0 :: p.stack } :: fs } := by
  cases o with
  | ret out => exact absurd rfl (ho out)
  | revert out => rfl
  | fail kind => rfl

/-- Settles O51: both returns roll back and push 0; the return of a call stores in its output region only, and that of a
CREATE stores nothing. -/
theorem failedChildIsUndone : Obligations.FailedChildIsUndone := by
  unfold Obligations.FailedChildIsUndone
  intro s t k p fs o hr hf hst ho hx
  rw [step_of_halted_child hr hf hst] at hx
  obtain ⟨hsettle, hflag, hrevert, hfail⟩ := settle_of_not_ret (s := s) (snap := k.snapshot) ho
  obtain ⟨outOff, outSize, hk, hcall⟩ | ⟨N, v, -, hcreate⟩ := returnTransition_next hx
  · obtain ⟨-, -, rfl⟩ := callReturn_next hcall
    rw [hsettle, hflag]
    refine ⟨rfl, rfl, rfl, rfl, _, rfl, rfl, rfl, rfl, hrevert, hfail, fun a ha => ?_⟩
    have houtside : a < outOff.toNat ∨ outOff.toNat + (padRead o.output 0 outSize.toNat).length ≤ a := by
      rw [padRead_length]
      exact ha outOff outSize hk
    exact byteAt_store_outside _ _ _ _ houtside
  · rw [createReturn_of_not_ret ho] at hcreate
    cases hcreate
    exact ⟨rfl, rfl, rfl, rfl, _, rfl, rfl, rfl, rfl, hrevert, hfail, fun _ _ => rfl⟩

end Sys2Proof.Machine
end

section
/-!
PROOFS of the family spec/60_exceptions.md. First the checks of an instruction in their order (R353) and, as one
relation, everything an instruction can answer once they are made (`Answers`); then one lemma for each operation the
meanings share and one for every instruction (`exec_answers`). The tables of the failure kinds are read off it.
-/

namespace Sys2Proof.Machine

open Sys2Proof.Rules

variable {s t : State} {f g : Frame} {fs l : List Frame} {i : Instr} {k : FailureKind} {c : Option FailureKind}
  {o : Out} {n : Nat} {pushes forbidden absent : Bool}

/-! ## The checks -/

/-- R353: the first failure of the checks of an instruction that needs `n` operands: the depth, then the room for a
Word it pushes without popping, then what static mode forbids, then an absent context value. -/
def firstFailure (s : State) (f : Frame) (n : Nat) (pushes forbidden absent : Bool) : Option FailureKind :=
  if f.stack.length < n then some .stackUnderflow
  else if pushes = true ∧ s.params.stackLimit ≤ f.stack.length then some .stackOverflow
  else if f.isStatic = true ∧ forbidden = true then some .staticViolation
  else if absent = true then some .missingContextField
  else none

/-- The checks of an instruction, by the tables of the statements. -/
def checkInstr (s : State) (f : Frame) (i : Instr) : Option FailureKind :=
  firstFailure s f (requiredDepth s.params i) (pushesOnly i) (forbiddenWhenStatic s.params f.stack i)
    (readsAbsent s f i)

theorem firstFailure_underflow_iff :
    firstFailure s f n pushes forbidden absent = some .stackUnderflow ↔ f.stack.length < n := by
  unfold firstFailure
  split_ifs <;> simp [*]

theorem firstFailure_overflow_iff :
    firstFailure s f n pushes forbidden absent = some .stackOverflow ↔
      pushes = true ∧ n ≤ f.stack.length ∧ s.params.stackLimit ≤ f.stack.length := by
  unfold firstFailure
  split_ifs <;> simp_all

theorem firstFailure_static_iff (h : pushes = true → forbidden = false) :
    firstFailure s f n pushes forbidden absent = some .staticViolation ↔
      n ≤ f.stack.length ∧ f.isStatic = true ∧ forbidden = true := by
  unfold firstFailure
  split_ifs <;> simp_all

theorem firstFailure_absent_iff :
    firstFailure s f n pushes forbidden absent = some .missingContextField ↔
      n ≤ f.stack.length ∧ ¬(pushes = true ∧ s.params.stackLimit ≤ f.stack.length) ∧
        ¬(f.isStatic = true ∧ forbidden = true) ∧ absent = true := by
  unfold firstFailure
  split_ifs <;> simp_all

/-- The kinds that the checks raise. -/
theorem kind_of_firstFailure (h : firstFailure s f n pushes forbidden absent = some k) :
    k = .stackUnderflow ∨ k = .stackOverflow ∨ k = .staticViolation ∨ k = .missingContextField := by
  unfold firstFailure at h
  split_ifs at h <;> cases h <;> simp

/-- R343, R361: static mode forbids nothing that pushes without popping. -/
theorem not_forbidden_of_pushesOnly {p : Params} {st : List Word} (h : pushesOnly i = true) :
    forbiddenWhenStatic p st i = false := by
  unfold forbiddenWhenStatic
  split <;> simp_all [pushesOnly]

/-! ## What an instruction answers -/

/-- Everything an instruction of the running frame `f` can answer when its checks give `c`: the failure they found; or,
where they pass, the failure of a jump or of RETURNDATACOPY, which check one thing more, a next state whose running frame
has not failed, or a refusal. -/
inductive Answers (c : Option FailureKind) (i : Instr) (s : State) (f : Frame) (fs : List Frame) : Out → Prop where
  | failed (k : FailureKind) : c = some k → Answers c i s f fs (.next (afterFailure s f fs k))
  /-- R352 -/
  | invalidJump : c = none → i = .jump ∨ i = .jumpi →
      Answers c i s f fs (.next (afterFailure s f fs .invalidJumpDestination))
  /-- R270 -/
  | outOfBounds : c = none → i = .returndatacopy →
      Answers c i s f fs (.next (afterFailure s f fs .returnDataOutOfBounds))
  | completed (t : State) (g : Frame) (l : List Frame) : c = none → t.frames = g :: l →
      (∀ k, g.status ≠ .halted (.fail k)) → Answers c i s f fs (.next t)
  /-- R393 -/
  | refused (r : Refusal) : c = none → Answers c i s f fs (.refused r)

theorem stack_eq_nil_of_length_lt_one {st : List Word} (h : st.length < 1) : st = [] :=
  List.length_eq_zero_iff.mp (Nat.lt_one_iff.mp h)

/-- A completed instruction that leaves its frame, or the child it entered, running. -/
theorem answers_of_running (ht : t.frames = g :: l) (hg : g.status = .running) :
    Answers none i s f fs (.next t) :=
  .completed t g l rfl ht (by rw [hg]; nofun)

/-- A completed instruction that halts its frame on purpose. -/
theorem answers_of_halted {out : Bytes} (ht : t.frames = g :: l)
    (hg : g.status = .halted (.ret out) ∨ g.status = .halted (.revert out)) : Answers none i s f fs (.next t) :=
  .completed t g l rfl ht (by rcases hg with hg | hg <;> rw [hg] <;> nofun)

/-- A memory access after the checks: refused, or what its body answers. -/
theorem answers_withGrown {off len : Nat} {body : Memory → Out} (h : ∀ m, Answers none i s f fs (body m)) :
    Answers none i s f fs (withGrown s f off len body) := by
  unfold withGrown
  split
  · split
    · exact h _
    · exact .refused _ rfl
  · exact .refused _ rfl

/-- The check of the depth, where it comes first of all. -/
theorem answers_of_depth (hlow : f.stack.length < n → o = .next (afterFailure s f fs .stackUnderflow))
    (hhigh : n ≤ f.stack.length → Answers (firstFailure s f 0 pushes forbidden absent) i s f fs o) :
    Answers (firstFailure s f n pushes forbidden absent) i s f fs o := by
  by_cases hlen : f.stack.length < n
  · rw [hlow hlen]
    exact .failed _ (firstFailure_underflow_iff.mpr hlen)
  · have hskip : firstFailure s f n pushes forbidden absent = firstFailure s f 0 pushes forbidden absent := by
      simp [firstFailure, hlen]
    rw [hskip]
    exact hhigh (Nat.not_lt.mp hlen)

/-- The check of the room for a Word, where the depth suffices. -/
theorem answers_of_room
    (hfull : s.params.stackLimit ≤ f.stack.length → o = .next (afterFailure s f fs .stackOverflow))
    (habsent : f.stack.length < s.params.stackLimit → absent = true →
      o = .next (afterFailure s f fs .missingContextField))
    (hpass : f.stack.length < s.params.stackLimit → absent = false → Answers none i s f fs o) :
    Answers (firstFailure s f 0 true false absent) i s f fs o := by
  unfold firstFailure
  simp only [Nat.not_lt_zero, if_false, true_and, Bool.false_eq_true, and_false]
  split_ifs with hlen ha
  · rw [hfull hlen]
    exact .failed _ rfl
  · rw [habsent (Nat.not_le.mp hlen) ha]
    exact .failed _ rfl
  · exact hpass (Nat.not_le.mp hlen) (Bool.eq_false_iff.mpr ha)

/-- The checks of static mode and of the context values, where the depth suffices (R353, D14). -/
theorem answers_of_context
    (hstatic : f.isStatic = true → forbidden = true → o = .next (afterFailure s f fs .staticViolation))
    (habsent : (f.isStatic = true → forbidden = false) → absent = true →
      o = .next (afterFailure s f fs .missingContextField))
    (hpass : (f.isStatic = true → forbidden = false) → absent = false → Answers none i s f fs o) :
    Answers (firstFailure s f 0 false forbidden absent) i s f fs o := by
  unfold firstFailure
  simp only [Nat.not_lt_zero, if_false, Bool.false_eq_true, false_and]
  split_ifs with hs ha
  · rw [hstatic hs.1 hs.2]
    exact .failed _ rfl
  · rw [habsent (by simpa using hs) ha]
    exact .failed _ rfl
  · exact hpass (by simpa using hs) (Bool.eq_false_iff.mpr ha)

/-- The checks of an instruction that needs `n` operands, and nothing else. -/
theorem answers_of_operands (hlow : f.stack.length < n → o = .next (afterFailure s f fs .stackUnderflow))
    (hhigh : n ≤ f.stack.length → Answers none i s f fs o) :
    Answers (firstFailure s f n false false false) i s f fs o :=
  answers_of_depth hlow fun hlen => answers_of_context nofun nofun fun _ _ => hhigh hlen

/-- The check of the depth of an instruction that needs one operand, and nothing else. -/
theorem answers_of_one_operand (hlow : f.stack = [] → o = .next (afterFailure s f fs .stackUnderflow))
    (hhigh : ∀ a st, f.stack = a :: st → Answers none i s f fs o) :
    Answers (firstFailure s f 1 false false false) i s f fs o := by
  refine answers_of_operands (fun hlen => hlow (stack_eq_nil_of_length_lt_one hlen)) fun hlen => ?_
  obtain ⟨a, st, hst⟩ := List.exists_cons_of_length_pos hlen
  exact hhigh a st hst

/-- The check of the depth of an instruction that needs two operands, and nothing else. -/
theorem answers_of_two_operands (hlow : f.stack.length < 2 → o = .next (afterFailure s f fs .stackUnderflow))
    (hhigh : ∀ a b st, f.stack = a :: b :: st → Answers none i s f fs o) :
    Answers (firstFailure s f 2 false false false) i s f fs o := by
  refine answers_of_operands hlow fun hlen => ?_
  obtain ⟨a, b, st, hst⟩ := exists_stack_of_two_le_length hlen
  exact hhigh a b st hst

/-- The checks of an instruction that static mode forbids and that needs its frame's address, where the depth
suffices. -/
theorem answers_of_mutation (hstatic : f.isStatic = true → o = .next (afterFailure s f fs .staticViolation))
    (habsent : f.isStatic = false → f.address = none → o = .next (afterFailure s f fs .missingContextField))
    (hpass : f.isStatic = false → ∀ A, f.address = some A → Answers none i s f fs o) :
    Answers (firstFailure s f 0 false true f.address.isNone) i s f fs o := by
  refine answers_of_context (fun hs _ => hstatic hs) (fun hs hA => ?_) fun hs hA => ?_
  · exact habsent (by simpa using hs) (Option.isNone_iff_eq_none.mp hA)
  · obtain ⟨A, hA⟩ := Option.isSome_iff_exists.mp (Option.isNone_eq_false_iff.mp hA)
    exact hpass (by simpa using hs) A hA

/-! ## The operations the meanings share -/

/-! ## The operands of the calls -/

theorem popCall_without_gas_cases (st : List Word) :
    (st.length < 6 ∧ popCall false st = none) ∨
      ∃ ops, 6 ≤ st.length ∧ popCall false st = some ops ∧ st[1]? = some ops.value := by
  match st with
  | [] | [_] | [_, _] | [_, _, _] | [_, _, _, _] | [_, _, _, _, _] => exact .inl ⟨by simp, rfl⟩
  | _ :: _ :: _ :: _ :: _ :: _ :: _ => exact .inr ⟨_, by simp, rfl, rfl⟩

/-- R309: a call with a value finds its operands exactly where the stack is deep enough; the gas operand is one more, on
top of the others. -/
theorem popCall_cases (gas : Bool) (st : List Word) :
    (st.length < (if gas then 7 else 6) ∧ popCall gas st = none) ∨
      ∃ ops, (if gas then 7 else 6) ≤ st.length ∧ popCall gas st = some ops ∧
        st[if gas then 2 else 1]? = some ops.value := by
  cases gas with
  | false => exact popCall_without_gas_cases st
  | true =>
    cases st with
    | nil => exact .inl ⟨Nat.succ_pos 6, rfl⟩
    | cons g st =>
      obtain ⟨hlen, hpop⟩ | ⟨ops, hlen, hpop, hvalue⟩ := popCall_without_gas_cases st
      · exact .inl ⟨Nat.succ_lt_succ hlen, hpop⟩
      · exact .inr ⟨ops, Nat.succ_le_succ hlen, hpop, hvalue⟩

theorem popCallNoValue_without_gas_cases (st : List Word) :
    (st.length < 5 ∧ popCallNoValue false st = none) ∨
      ∃ ops, 5 ≤ st.length ∧ popCallNoValue false st = some ops := by
  match st with
  | [] | [_] | [_, _] | [_, _, _] | [_, _, _, _] => exact .inl ⟨by simp, rfl⟩
  | _ :: _ :: _ :: _ :: _ :: _ => exact .inr ⟨_, by simp, rfl⟩

/-- R309: the same of a call without a value. -/
theorem popCallNoValue_cases (gas : Bool) (st : List Word) :
    (st.length < (if gas then 6 else 5) ∧ popCallNoValue gas st = none) ∨
      ∃ ops, (if gas then 6 else 5) ≤ st.length ∧ popCallNoValue gas st = some ops := by
  cases gas with
  | false => exact popCallNoValue_without_gas_cases st
  | true =>
    cases st with
    | nil => exact .inl ⟨Nat.succ_pos 5, rfl⟩
    | cons g st =>
      obtain ⟨hlen, hpop⟩ | ⟨ops, hlen, hpop⟩ := popCallNoValue_without_gas_cases st
      · exact .inl ⟨Nat.succ_lt_succ hlen, hpop⟩
      · exact .inr ⟨ops, Nat.succ_le_succ hlen, hpop⟩

section
variable (hf : s.frames = f :: fs) (hrun : f.status = .running)
include hf hrun

theorem plainOp_answers : Answers (firstFailure s f 0 false false false) i s f fs (plainOp s) := by
  rw [plainOp, onTop_of_frames hf]
  exact answers_of_operands nofun fun _ => answers_of_running rfl hrun

theorem unaryOp_answers {op} : Answers (firstFailure s f 1 false false false) i s f fs (unaryOp op s) := by
  refine answers_of_one_operand (fun hst => ?_) fun a st hst => ?_
  · rw [unaryOp_underflow hf hst, raise_eq_afterFailure hf]
  · rw [unaryOp_of_stack hf hst]
    exact answers_of_running rfl hrun

theorem binaryOp_answers {op} : Answers (firstFailure s f 2 false false false) i s f fs (binaryOp op s) := by
  refine answers_of_two_operands (fun hlen => ?_) fun a b st hst => ?_
  · rw [binaryOp_underflow hf hlen, raise_eq_afterFailure hf]
  · rw [binaryOp_of_stack hf hst]
    exact answers_of_running rfl hrun

theorem ternaryOp_answers {op} : Answers (firstFailure s f 3 false false false) i s f fs (ternaryOp op s) := by
  refine answers_of_operands (fun hlen => ?_) fun hlen => ?_
  · rw [ternaryOp_underflow hf hlen, raise_eq_afterFailure hf]
  · obtain ⟨a, b, c, st, hst⟩ := exists_stack_of_three_le_length hlen
    rw [ternaryOp_of_stack hf hst]
    exact answers_of_running rfl hrun

theorem popOp_answers : Answers (firstFailure s f 1 false false false) i s f fs (popOp s) := by
  refine answers_of_one_operand (fun hst => ?_) fun a st hst => ?_
  · rw [popOp_underflow hf hst, raise_eq_afterFailure hf]
  · rw [popOp_of_stack hf hst]
    exact answers_of_running rfl hrun

theorem pushOp_answers {len : Nat} {v : Frame → Option Word} (hv : (v f).isNone = absent) :
    Answers (firstFailure s f 0 true false absent) i s f fs (pushOp len v s) := by
  subst hv
  refine answers_of_room (fun hlen => ?_) (fun hlen hv => ?_) fun hlen hv => ?_
  · rw [pushOp_overflow hf hlen, raise_eq_afterFailure hf]
  · rw [pushOp_of_none hf hlen (Option.isNone_iff_eq_none.mp hv), raise_eq_afterFailure hf]
  · obtain ⟨w, hw⟩ := Option.isSome_iff_exists.mp (Option.isNone_eq_false_iff.mp hv)
    rw [pushOp_of_some hf hlen hw]
    exact answers_of_running rfl hrun

theorem dupOp_answers (hn : Nat.ble 1 n = true) :
    Answers (firstFailure s f n true false false) i s f fs (dupOp n s) := by
  have hn := Nat.le_of_ble_eq_true hn
  refine answers_of_depth (fun hlen => ?_) fun hle => answers_of_room (fun hlen => ?_) nofun fun hlen _ => ?_
  · rw [dupOp_underflow hf hlen, raise_eq_afterFailure hf]
  · rw [dupOp_overflow hf hn hle hlen, raise_eq_afterFailure hf]
  · rw [dupOp_of_stack hf (List.getElem?_eq_getElem (Nat.sub_one_lt_of_le hn hle)) hlen]
    exact answers_of_running rfl hrun

theorem swapOp_answers (hn : Nat.ble 1 n = true) :
    Answers (firstFailure s f (n + 1) false false false) i s f fs (swapOp n s) := by
  have hn := Nat.le_of_ble_eq_true hn
  refine answers_of_operands (fun hlen => ?_) fun hlen => ?_
  · rw [swapOp_underflow hf hlen, raise_eq_afterFailure hf]
  · obtain ⟨a, st, hst⟩ := List.exists_cons_of_length_pos (Nat.lt_of_lt_of_le (Nat.succ_pos n) hlen)
    have hlt : n - 1 < st.length := by rw [hst, List.length_cons] at hlen; omega
    rw [swapOp, onTop_of_frames hf, hst]
    simp only [List.getElem?_eq_getElem hlt]
    exact answers_of_running rfl hrun

theorem copyOp_answers {buf ok} (hok : ∀ src len, ok f src len = false → i = .returndatacopy) :
    Answers (firstFailure s f 3 false false false) i s f fs (copyOp buf ok s) := by
  refine answers_of_operands (copyOp_underflow hf) fun hlen => ?_
  obtain ⟨d, src, len, st, hst⟩ := exists_stack_of_three_le_length hlen
  by_cases hread : ok f src.toNat len.toNat = true
  · rw [copyOp, onTop_of_frames hf, hst]
    simp only [hread, if_true]
    exact answers_withGrown fun _ => answers_of_running rfl hrun
  · have hread := Bool.eq_false_iff.mpr hread
    rw [copyOp_outOfBounds hf hst hread]
    exact .outOfBounds rfl (hok _ _ hread)

omit hrun in
theorem haltWithOutput_answers {oc : Bytes → HaltOutcome} (ho : ∀ out, oc out = .ret out ∨ oc out = .revert out) :
    Answers (firstFailure s f 2 false false false) i s f fs (haltWithOutput oc s) := by
  refine answers_of_two_operands (haltWithOutput_underflow hf) fun off size st hst => ?_
  rw [haltWithOutput, onTop_of_frames hf, hst]
  exact answers_withGrown fun _ => answers_of_halted rfl ((ho _).imp (congrArg _) (congrArg _))

theorem logOp_answers :
    Answers (firstFailure s f (n + 2) false true f.address.isNone) i s f fs (logOp n s) := by
  refine answers_of_depth (logOp_underflow hf) fun hlen =>
    answers_of_mutation (logOp_static hf hlen) (logOp_no_address hf hlen) fun hs A hA => ?_
  obtain ⟨o, w, st, hst⟩ := exists_stack_of_two_le_length (Nat.le_of_add_left_le hlen)
  have htopics : ¬st.length < n := by simpa [hst] using hlen
  simp only [logOp, onTop_of_frames hf, hst, if_neg htopics, hs, hA, Bool.false_eq_true, if_false]
  exact answers_withGrown fun _ => answers_of_running rfl hrun

/-! ## The instructions with a meaning of their own -/

omit hrun in
theorem execStop_answers : Answers (firstFailure s f 0 false false false) i s f fs (execStop s) := by
  rw [execStop_eq hf]
  exact answers_of_operands nofun fun _ => answers_of_halted rfl (.inl rfl)

theorem jumpTo_answers {d : Word} {st : List Word} (hi : i = .jump ∨ i = .jumpi) :
    Answers none i s f fs (jumpTo s f d st) := by
  by_cases hd : d.toNat ∈ f.jumpdests
  · rw [jumpTo, if_pos hd]
    split
    · exact answers_of_running rfl hrun
    · exact .refused _ rfl
  · rw [jumpTo_invalid hf hd]
    exact .invalidJump rfl hi

theorem execJump_answers : Answers (firstFailure s f 1 false false false) .jump s f fs (execJump s) := by
  refine answers_of_one_operand (fun hst => ?_) fun d st hst => ?_
  · rw [execJump_underflow hf hst, raise_eq_afterFailure hf]
  · rw [execJump_of_stack hf hst]
    exact jumpTo_answers hf hrun (.inl rfl)

theorem execJumpi_answers : Answers (firstFailure s f 2 false false false) .jumpi s f fs (execJumpi s) := by
  refine answers_of_two_operands (fun hlen => ?_) fun d c st hst => ?_
  · rw [execJumpi_underflow hf hlen, raise_eq_afterFailure hf]
  · by_cases hc : c = 0
    · rw [execJumpi_not_taken hf (hc ▸ hst)]
      exact answers_of_running rfl hrun
    · rw [execJumpi_taken hf hst hc]
      exact jumpTo_answers hf hrun (.inr rfl)

theorem execMload_answers : Answers (firstFailure s f 1 false false false) i s f fs (execMload s) := by
  refine answers_of_one_operand (fun hst => ?_) fun a st hst => ?_
  · rw [execMload_underflow hf hst, raise_eq_afterFailure hf]
  · rw [execMload, onTop_of_frames hf, hst]
    exact answers_withGrown fun _ => answers_of_running rfl hrun

theorem execSha3_answers : Answers (firstFailure s f 2 false false false) i s f fs (execSha3 s) := by
  refine answers_of_two_operands (fun hlen => ?_) fun a b st hst => ?_
  · rw [execSha3_underflow hf hlen, raise_eq_afterFailure hf]
  · rw [execSha3, onTop_of_frames hf, hst]
    exact answers_withGrown fun _ => answers_of_running rfl hrun

theorem execMstore_answers : Answers (firstFailure s f 2 false false false) i s f fs (execMstore s) := by
  refine answers_of_two_operands (fun hlen => ?_) fun a b st hst => ?_
  · rw [execMstore_underflow hf hlen, raise_eq_afterFailure hf]
  · rw [execMstore, onTop_of_frames hf, hst]
    exact answers_withGrown fun _ => answers_of_running rfl hrun

theorem execMstore8_answers : Answers (firstFailure s f 2 false false false) i s f fs (execMstore8 s) := by
  refine answers_of_two_operands (fun hlen => ?_) fun a b st hst => ?_
  · rw [execMstore8_underflow hf hlen, raise_eq_afterFailure hf]
  · rw [execMstore8, onTop_of_frames hf, hst]
    exact answers_withGrown fun _ => answers_of_running rfl hrun

theorem execExtcodecopy_answers : Answers (firstFailure s f 4 false false false) i s f fs (execExtcodecopy s) := by
  refine answers_of_operands (execExtcodecopy_underflow hf) fun hlen => ?_
  rw [execExtcodecopy, onTop_of_frames hf]
  match hst : f.stack with
  | [] | [_] | [_, _] | [_, _, _] => simp [hst] at hlen
  | _ :: _ :: _ :: _ :: _ => exact answers_withGrown fun _ => answers_of_running rfl hrun

theorem execSload_answers : Answers (firstFailure s f 1 false false f.address.isNone) i s f fs (execSload s) := by
  refine answers_of_depth (fun hlen => execSload_underflow hf (stack_eq_nil_of_length_lt_one hlen))
    fun hlen => answers_of_context nofun (fun _ hA => ?_) fun _ hA => ?_
  · exact execSload_no_address hf (List.ne_nil_of_length_pos hlen) (Option.isNone_iff_eq_none.mp hA)
  · obtain ⟨a, st, hst⟩ := List.exists_cons_of_length_pos hlen
    obtain ⟨A, hA⟩ := Option.isSome_iff_exists.mp (Option.isNone_eq_false_iff.mp hA)
    rw [execSload_of_stack hf hst hA]
    exact answers_of_running rfl hrun

theorem execSstore_answers : Answers (firstFailure s f 2 false true f.address.isNone) i s f fs (execSstore s) := by
  refine answers_of_depth (execSstore_underflow hf) fun hlen =>
    answers_of_mutation (execSstore_static hf hlen) (execSstore_no_address hf hlen) fun hs A hA => ?_
  obtain ⟨a, b, st, hst⟩ := exists_stack_of_two_le_length hlen
  rw [execSstore_of_stack hf hst hs hA]
  exact answers_of_running rfl hrun

omit hrun in
theorem execSelfdestruct_answers :
    Answers (firstFailure s f 1 false true f.address.isNone) i s f fs (execSelfdestruct s) := by
  refine answers_of_depth (fun hlen => execSelfdestruct_underflow hf (stack_eq_nil_of_length_lt_one hlen))
    fun hlen => ?_
  obtain ⟨a, st, hst⟩ := List.exists_cons_of_length_pos hlen
  have hne : f.stack ≠ [] := List.ne_nil_of_length_pos hlen
  refine answers_of_mutation (execSelfdestruct_static hf hne) (execSelfdestruct_no_address hf hne) fun hs A hA => ?_
  rw [execSelfdestruct_of_stack hf hst hs hA]
  exact answers_of_halted rfl (.inl rfl)

theorem execCreate_answers : Answers (firstFailure s f 3 false true f.address.isNone) i s f fs (execCreate s) := by
  refine answers_of_depth (execCreate_underflow hf) fun hlen =>
    answers_of_mutation (execCreate_static hf hlen) (execCreate_no_address hf hlen) fun hs A hA => ?_
  obtain ⟨v, off, size, st, hst⟩ := exists_stack_of_three_le_length hlen
  cases hb : createBlocked s f A v with
  | some reason =>
    rw [execCreate_of_blocked hf hst hs hA hb]
    exact answers_of_running rfl hrun
  | none =>
    simp only [execCreate, onTop_of_frames hf, hst, hs, hA, hb, Bool.false_eq_true, if_false]
    exact answers_withGrown fun _ => answers_of_running rfl rfl

/-! ## The calls -/

omit hf in
/-- R313, R314: past its checks a call completes without a frame, or reads its input and enters its child. -/
theorem callOp_answers {ops : CallOperands} {child : ChildContext} :
    Answers none i s f fs (callOp s f ops child) := by
  unfold callOp
  split
  · exact answers_of_running rfl hrun
  · exact answers_withGrown fun _ => answers_of_running rfl rfl

theorem execCall_answers :
    Answers (checkInstr s f .call) .call s f fs (execCall s) := by
  obtain ⟨hlen, hpop⟩ | ⟨ops, hlen, hpop, hvalue⟩ := popCall_cases s.params.callHasGasOperand f.stack
  · refine answers_of_depth (fun _ => ?_) fun hle => absurd hlen (Nat.not_lt.mpr hle)
    rw [execCall, onTop_of_frames hf, hpop, ← raise_eq_afterFailure hf]
  refine answers_of_depth (fun hlt => absurd hlt (Nat.not_lt.mpr hlen)) fun _ => ?_
  have hforbidden : forbiddenWhenStatic s.params f.stack .call = decide (ops.value ≠ 0) := by
    simp only [forbiddenWhenStatic, hvalue, ne_eq, Option.some.injEq]
  have habsent : readsAbsent s f .call = (f.address.isNone && decide (ops.value ≠ 0)) := by
    simp only [readsAbsent, hvalue, ne_eq, Option.some.injEq]
  rw [hforbidden, habsent]
  refine answers_of_context (fun hs hv => ?_) (fun hs hA => ?_) fun hs hA => ?_
  · have hv : ops.value ≠ 0 := of_decide_eq_true hv
    simp only [execCall, onTop_of_frames hf, hpop, if_pos (And.intro hs hv), raise_eq_afterFailure hf]
  · obtain ⟨hA, hv⟩ := Bool.and_eq_true_iff.mp hA
    have hv : ops.value ≠ 0 := of_decide_eq_true hv
    have hs : ¬(f.isStatic = true ∧ ops.value ≠ 0) := fun ⟨hst, hne⟩ => of_decide_eq_false (hs hst) hne
    have hA : f.address = none := Option.isNone_iff_eq_none.mp hA
    simp only [execCall, onTop_of_frames hf, hpop, if_neg hs, if_pos (And.intro hv hA), raise_eq_afterFailure hf]
  · have hpaid : ops.value = 0 ∨ f.isStatic = false ∧ f.address ≠ none := by
      by_cases hv : ops.value = 0
      · exact .inl hv
      · simp only [ne_eq, hv, not_false_eq_true, decide_true, Bool.and_true] at hs hA
        exact .inr ⟨Bool.eq_false_iff.mpr fun hst => absurd (hs hst) nofun,
          Option.isSome_iff_ne_none.mp (Option.isNone_eq_false_iff.mp hA)⟩
    rw [execCall_eq_callOp hf hpop hpaid]
    exact callOp_answers hrun

omit hf in
/-- DELEGATECALL and STATICCALL check their operands alone. -/
theorem callNoValue_answers
    (hlow : popCallNoValue s.params.callHasGasOperand f.stack = none →
      o = .next (afterFailure s f fs .stackUnderflow))
    (hcall : ∀ ops, popCallNoValue s.params.callHasGasOperand f.stack = some ops → ∃ child, o = callOp s f ops child) :
    Answers (firstFailure s f (if s.params.callHasGasOperand then 6 else 5) false false false) i s f fs o := by
  obtain ⟨hlen, hpop⟩ | ⟨ops, hlen, hpop⟩ := popCallNoValue_cases s.params.callHasGasOperand f.stack
  · exact answers_of_operands (fun _ => hlow hpop) fun hle => absurd hlen (Nat.not_lt.mpr hle)
  · obtain ⟨child, rfl⟩ := hcall ops hpop
    exact answers_of_operands (fun hlt => absurd hlt (Nat.not_lt.mpr hlen)) fun _ => callOp_answers hrun

theorem execDelegatecall_answers : Answers (checkInstr s f .delegatecall) i s f fs (execDelegatecall s) := by
  refine callNoValue_answers hrun (fun hpop => ?_) fun ops hpop => ⟨_, execDelegatecall_eq_callOp hf hpop⟩
  rw [execDelegatecall, onTop_of_frames hf, hpop, ← raise_eq_afterFailure hf]

theorem execStaticcall_answers : Answers (checkInstr s f .staticcall) i s f fs (execStaticcall s) := by
  refine callNoValue_answers hrun (fun hpop => ?_) fun ops hpop => ⟨_, execStaticcall_eq_callOp hf hpop⟩
  rw [execStaticcall, onTop_of_frames hf, hpop, ← raise_eq_afterFailure hf]

/-! ## Every instruction -/

/-- R342 to R352: what every instruction answers, by its row of the tables. -/
theorem exec_answers (i : Instr) : Answers (checkInstr s f i) i s f fs (exec i s) := by
  cases i with
  | add | mul | sub | div | sdiv | mod | smod | exp | signextend | lt | gt | slt | sgt | eq | and | or | xor | byte
  | shl | shr | sar => exact binaryOp_answers hf hrun
  | addmod | mulmod => exact ternaryOp_answers hf hrun
  | iszero | not | balance | calldataload | extcodesize | extcodehash => exact unaryOp_answers hf hrun
  | dup1 | dup2 | dup3 | dup4 | dup5 | dup6 | dup7 | dup8 | dup9 | dup10 | dup11 | dup12 | dup13 | dup14 | dup15
  | dup16 => exact dupOp_answers hf hrun rfl
  | swap1 | swap2 | swap3 | swap4 | swap5 | swap6 | swap7 | swap8 | swap9 | swap10 | swap11 | swap12 | swap13
  | swap14 | swap15 | swap16 => exact swapOp_answers hf hrun rfl
  | callvalue | calldatasize | codesize | gasprice | returndatasize | timestamp | number | difficulty | gaslimit
  | chainid | basefee | pc | msize | push0 | push1 | push2 | push3 | push4 | push5 | push6 | push7 | push8 | push9
  | push10 | push11 | push12 | push13 | push14 | push15 | push16 | push17 | push18 | push19 | push20 | push21 | push22
  | push23 | push24 | push25 | push26 | push27 | push28 | push29 | push30 | push31 | push32 =>
    unfold exec
    exact pushOp_answers hf hrun rfl
  | address | origin | caller | coinbase | selfbalance =>
    unfold exec
    exact pushOp_answers hf hrun Option.isNone_map
  | calldatacopy | codecopy =>
    unfold exec
    exact copyOp_answers hf hrun nofun
  | returndatacopy =>
    unfold exec
    exact copyOp_answers hf hrun fun _ _ _ => rfl
  | ret => exact haltWithOutput_answers hf fun _ => .inl rfl
  | revert => exact haltWithOutput_answers hf fun _ => .inr rfl
  | log0 | log1 | log2 | log3 | log4 => exact logOp_answers hf hrun
  | stop => exact execStop_answers hf
  | sha3 => exact execSha3_answers hf hrun
  | extcodecopy => exact execExtcodecopy_answers hf hrun
  | pop => exact popOp_answers hf hrun
  | mload => exact execMload_answers hf hrun
  | mstore => exact execMstore_answers hf hrun
  | mstore8 => exact execMstore8_answers hf hrun
  | sload => exact execSload_answers hf hrun
  | sstore => exact execSstore_answers hf hrun
  | jump => exact execJump_answers hf hrun
  | jumpi => exact execJumpi_answers hf hrun
  | jumpdest => exact plainOp_answers hf hrun
  | create => exact execCreate_answers hf hrun
  | call => exact execCall_answers hf hrun
  | delegatecall => exact execDelegatecall_answers hf hrun
  | staticcall => exact execStaticcall_answers hf hrun
  | selfdestruct => exact execSelfdestruct_answers hf

theorem exec_ne_fault (e : Fault) : exec i s ≠ .fault e := by
  have h := exec_answers hf hrun i
  intro hx
  rw [hx] at h
  cases h

end

/-! ## The obligations -/

theorem Answers.eq_of_some (h : Answers (some k) i s f fs o) : o = .next (afterFailure s f fs k) := by
  cases h with
  | failed k' hk => rw [Option.some.inj hk]
  | invalidJump hc | outOfBounds hc | completed _ _ _ hc | refused _ hc => cases hc

/-- R350: a next state whose running frame has failed is the failure of the frame that executed, raised by the checks or
by one of the three instructions with a check of their own. -/
theorem Answers.of_failed (h : Answers c i s f fs (.next t)) (ht : t.frames = g :: l)
    (hg : g.status = .halted (.fail k)) :
    t = afterFailure s f fs k ∧
      (c = some k ∨ k = .invalidJumpDestination ∧ (i = .jump ∨ i = .jumpi) ∨
        k = .returnDataOutOfBounds ∧ i = .returndatacopy) := by
  have hkind : ∀ k', t = afterFailure s f fs k' → k' = k := by
    rintro k' rfl
    obtain ⟨rfl, -⟩ := List.cons.inj ht
    exact HaltOutcome.fail.inj (FrameStatus.halted.inj hg)
  cases h with
  | failed k' hc => obtain rfl := hkind k' rfl; exact ⟨rfl, .inl hc⟩
  | invalidJump _ hi => obtain rfl := hkind _ rfl; exact ⟨rfl, .inr (.inl ⟨rfl, hi⟩)⟩
  | outOfBounds _ hi => obtain rfl := hkind _ rfl; exact ⟨rfl, .inr (.inr ⟨rfl, hi⟩)⟩
  | completed _ g' _ _ ht' hne =>
    obtain ⟨rfl, -⟩ := List.cons.inj (ht.symm.trans ht')
    exact absurd hg (hne k)

/-- A kind that no instruction raises by a check of its own is raised exactly where the checks find it. -/
theorem raises_iff_checkInstr (hf : s.frames = f :: fs) (hrun : f.status = .running)
    (hjump : k ≠ .invalidJumpDestination) (hread : k ≠ .returnDataOutOfBounds) :
    Raises i s f fs k ↔ checkInstr s f i = some k := by
  have h := exec_answers hf hrun i
  constructor
  · intro hx
    unfold Raises at hx
    rw [hx] at h
    obtain ⟨-, hc | ⟨hk, -⟩ | ⟨hk, -⟩⟩ := h.of_failed rfl rfl
    · exact hc
    · exact absurd hk hjump
    · exact absurd hk hread
  · intro hc
    rw [hc] at h
    exact h.eq_of_some

/-- Settles O44: the depth is the first check. -/
theorem underflowTable : Obligations.UnderflowTable := by
  unfold Obligations.UnderflowTable
  exact fun i s f fs hf hrun =>
    (raises_iff_checkInstr (k := .stackUnderflow) hf hrun nofun nofun).trans firstFailure_underflow_iff

/-- Settles O45: the room for a Word is the second check. -/
theorem overflowTable : Obligations.OverflowTable := by
  unfold Obligations.OverflowTable
  exact fun i s f fs hf hrun =>
    (raises_iff_checkInstr (k := .stackOverflow) hf hrun nofun nofun).trans firstFailure_overflow_iff

/-- Settles O46: static mode is the third check, and what it forbids is not subject to the second. -/
theorem staticViolationTable : Obligations.StaticViolationTable := by
  unfold Obligations.StaticViolationTable
  exact fun i s f fs hf hrun =>
    (raises_iff_checkInstr (k := .staticViolation) hf hrun nofun nofun).trans
      (firstFailure_static_iff not_forbidden_of_pushesOnly)

/-- Settles O47: an absent context value is the last check. -/
theorem missingContextTable : Obligations.MissingContextTable := by
  unfold Obligations.MissingContextTable
  exact fun i s f fs hf hrun =>
    (raises_iff_checkInstr (k := .missingContextField) hf hrun nofun nofun).trans firstFailure_absent_iff

/-- Settles O48: the running frame of the next state has failed only where a check raised the failure, and the checks
raise four kinds. -/
theorem failureChangesOnlyStatus : Obligations.FailureChangesOnlyStatus := by
  unfold Obligations.FailureChangesOnlyStatus
  intro i s t f g fs below k hf hrun hx ht hg
  have h := exec_answers hf hrun i
  rw [hx] at h
  obtain ⟨heq, hc | ⟨rfl, hi⟩ | ⟨rfl, hi⟩⟩ := h.of_failed ht hg
  · rcases kind_of_firstFailure hc with rfl | rfl | rfl | rfl <;>
      exact ⟨heq, nofun, nofun, nofun, nofun, nofun⟩
  · exact ⟨heq, fun _ => hi, nofun, nofun, nofun, nofun⟩
  · exact ⟨heq, nofun, fun _ => hi, nofun, nofun, nofun⟩

end Sys2Proof.Machine
end

section
/-!
PROOFS of the family spec/70_reset_and_hazards.md, and of what R361 derives of a static frame: each follows the cases of
a step.
-/

namespace Sys2Proof.Machine

open Sys2Proof.Rules

variable {s t : State} {f k p : Frame} {fs below : List Frame} {o : HaltOutcome} {e : Fault} {off n : Nat}

/-! ## No step faults -/

theorem withGrown_ne_fault {body : Memory → Out} (h : ∀ m, body m ≠ .fault e) :
    withGrown s f off n body ≠ .fault e := by
  unfold withGrown
  split
  · split
    · exact h _
    · nofun
  · nofun

/-- R308: a return transition faults only where a top-level frame has a parent. -/
theorem returnTransition_ne_fault (hk : k.kind ≠ .top) : returnTransition s o k p below ≠ .fault e := by
  unfold returnTransition
  split
  · exact absurd ‹_› hk
  · exact withGrown_ne_fault nofun
  · exact withGrown_ne_fault nofun
  · exact withGrown_ne_fault nofun
  · cases o <;> nofun

/-- R240: no fetch faults, nor does the instruction it finds. -/
theorem step_ne_fault_of_running (h : Running s f fs) : step s ≠ .fault e := by
  rw [step, nextPhase_of_running h, fetchPhase]
  obtain ⟨-, hf, hrun⟩ := h
  cases decode (f.code.drop f.pc) with
  | endOfCode => nofun
  | unknownOpcode op => cases countFetch s <;> nofun
  | instr i rest =>
    cases hc : countFetch s with
    | none => nofun
    | some s' =>
      by_cases hp : fitsPc s.params (f.pc + i.length) = true
      · simp only [hp, if_true]
        exact exec_ne_fault ((countFetch_frames hc).trans hf) hrun e
      · simp only [hp]
        nofun

/-- R385: the core acts only while a run is in progress. -/
theorem step_of_not_running (h : s.runStatus ≠ .running) : step s = .next s := by
  unfold step nextPhase
  cases hr : s.runStatus with
  | running => exact absurd hr h
  | idle | done => rfl

/-- Settles O57: a running machine has a frame; if it runs, its step is a fetch, and if it has halted, it ends the run
or, its kind not being top, returns to its parent. -/
theorem stepNeverFaults : Obligations.StepNeverFaults := by
  unfold Obligations.StepNeverFaults
  intro s e h
  by_cases hr : s.runStatus = .running
  · obtain ⟨f, fs, hf⟩ := List.exists_cons_of_ne_nil (h.running hr)
    cases hst : f.status with
    | running => exact step_ne_fault_of_running ⟨hr, hf, hst⟩
    | halted o =>
      cases fs with
      | nil => rw [step_of_halted_top hr hf hst]; nofun
      | cons p below =>
        rw [step_of_halted_child hr hf hst]
        have hchain : ChainInv s.params (f :: p :: below) := hf ▸ h.chain
        obtain ⟨hkind, -⟩ := hchain
        exact returnTransition_ne_fault hkind
  · rw [step_of_not_running hr]; nofun

/-! ## A static frame changes nothing shared -/

/-- R361: what a static frame must leave as it is. -/
def SharedKept (s t : State) : Prop := t.world = s.world ∧ t.destruct = s.destruct ∧ t.logs = s.logs

theorem Effect.sharedKept {len : Nat} (h : Effect len s f t) (hs : f.isStatic = true) : SharedKept s t := by
  cases h with
  | failed | moved => exact ⟨rfl, rfl, rfl⟩
  | mutated g w d new hns => rw [hs] at hns; cases hns
  | entered k g w n _ _ _ hk _ _ hw => exact ⟨hw (hk.isStatic hs), rfl, rfl⟩

/-- R361: the return of a static child rolls back to the state as it stands, or not at all; a CREATE makes none. -/
theorem sharedKept_of_return (h : s.Inv) (hf : s.frames = k :: p :: fs) (hs : k.isStatic = true)
    (hx : returnTransition s o k p fs = .next t) : SharedKept s t := by
  obtain ⟨outOff, outSize, -, hcall⟩ | ⟨N, v, hkind, -⟩ := returnTransition_next hx
  · obtain ⟨-, -, rfl⟩ := callReturn_next hcall
    rw [h.static k (hf ▸ List.mem_cons_self) hs]
    cases o <;> simp [SharedKept]
  · have hchain : ChainInv s.params (k :: p :: fs) := hf ▸ h.chain
    obtain ⟨-, -, -, hcreated, -⟩ := hchain
    rw [hcreated N v hkind] at hs
    cases hs

/-- R361: a step whose running frame is static. -/
theorem sharedKept_of_step (h : s.Inv) (hf : s.frames = f :: fs) (hs : f.isStatic = true) (hx : step s = .next t) :
    SharedKept s t := by
  cases step_cases hx with
  | stutter _ ht => exact ht ▸ ⟨rfl, rfl, rfl⟩
  | endOfCode g l _ _ _ _ ht => exact ht ▸ ⟨rfl, rfl, rfl⟩
  | unknown g l op s' _ _ _ _ hc ht =>
    rcases countFetch_some hc with ⟨-, rfl⟩ | ⟨_, -, -, rfl⟩ <;> exact ht ▸ ⟨rfl, rfl, rfl⟩
  | executed g l i rest s' _ hg _ _ hc _ hx =>
    obtain ⟨rfl, -⟩ := List.cons.inj (hf.symm.trans hg)
    have hkept := (exec_effect ((countFetch_frames hc).trans hf) hx).sharedKept hs
    rcases countFetch_some hc with ⟨-, rfl⟩ | ⟨_, -, -, rfl⟩ <;> exact hkept
  | returned g q l o _ hg _ hx =>
    obtain ⟨rfl, -⟩ := List.cons.inj (hf.symm.trans hg)
    exact sharedKept_of_return h hg hs hx
  | ended g o _ hg _ _ =>
    obtain ⟨rfl, -⟩ := List.cons.inj (hf.symm.trans hg)
    have hchain : ChainInv s.params [f] := hg ▸ h.chain
    obtain ⟨-, -, hns⟩ := hchain
    rw [hs] at hns
    cases hns

/-- Settles O58: in both cases the running frame is static, a child of a static frame being static. -/
theorem staticFramesMutateNothing : Obligations.StaticFramesMutateNothing := by
  unfold Obligations.StaticFramesMutateNothing
  rintro s t f fs h - hx (⟨hf, hs, -⟩ | ⟨k, hf, hs⟩)
  · exact sharedKept_of_step h hf hs hx
  · have hchain : ChainInv s.params (k :: f :: fs) := hf ▸ h.chain
    exact sharedKept_of_step h hf (hchain.static_above List.mem_cons_self hs) hx

/-! ## The launch -/

/-- R326: the top-level frame of a launch meets the frame invariant. -/
theorem topFrame_inv {params : Params} {code : Bytes} {tx : TxContext} {world : World}
    (hcode : fitsLength params code.length = true) (hdata : fitsLength params (tx.data.getD []).length = true)
    (hworld : worldWf world) (hcodes : codesFit params world) : FrameInv params (topFrame code tx world) where
  memory := empty_wf
  capacity := fitsLimit_zero _
  targets := rfl
  boundary := .start
  pcBound := Nat.zero_le _
  stack := Nat.zero_le _
  depth := Nat.zero_le _
  snapshotWorld := hworld
  snapshotDestruct := .nil
  pcWidth := fitsPc_zero _
  codeLength := hcode
  calldataLength := hdata
  returndataLength := fitsLength_zero _
  outputLength := nofun
  snapshotCodes := hcodes

/-- Settles O55: LOAD tests the lengths and builds a world in canonical form, and START needs no more. -/
theorem launchMeetsInvariant : Obligations.LaunchMeetsInvariant := by
  unfold Obligations.LaunchMeetsInvariant
  intro inputs s t hx
  have hallowed : ¬(s.runStatus = .running ∨ ¬InputsFit s inputs) := fun hno => by
    rw [launch, load_eq_none hno] at hx
    cases hx
  obtain ⟨hr, hfit⟩ := not_or.mp hallowed
  have hfit := not_not.mp hfit
  rw [launch, load_eq_some hr hfit] at hx
  obtain rfl := Option.some.inj hx.symm
  obtain ⟨hcode, hdata, hstate⟩ := hfit
  have hcodes : codesFit s.params (buildWorld inputs.state) :=
    buildWorld_codes inputs.state fun e he => fitsLength_iff.mpr (hstate e.1 e.2 he)
  have htop : FrameInv s.params (topFrame inputs.code inputs.tx (buildWorld inputs.state)) :=
    topFrame_inv (fitsLength_iff.mpr hcode) (fitsLength_iff.mpr hdata) (buildWorld_wf _) hcodes
  exact {
    frames := fun f hf => List.mem_singleton.mp hf ▸ htop
    chain := ⟨rfl, rfl, rfl⟩
    running := fun _ => List.cons_ne_nil _ _
    done := nofun
    world := buildWorld_wf _
    destruct := .nil
    nonce := ⟨.nil, nofun⟩
    codes := hcodes
    logs := nofun
    static := fun f hf hs => by rw [List.mem_singleton.mp hf] at hs; cases hs
    steps := fun _ _ => Nat.zero_le _ }

/-! ## Host and core -/

/-- R53, R280, R389: the registers the host writes, and what only the end of a run writes. -/
def HostRegistersKept (s t : State) : Prop :=
  t.tx = s.tx ∧ t.block = s.block ∧ t.params = s.params ∧
    (t.runStatus = s.runStatus → t.result = s.result ∧ t.lastFailure = s.lastFailure)

theorem countFetch_hostRegistersKept {s' : State} (h : countFetch s = some s') (hkept : HostRegistersKept s' t) :
    HostRegistersKept s t := by
  rcases countFetch_some h with ⟨-, rfl⟩ | ⟨_, -, -, rfl⟩ <;> exact hkept

theorem exec_hostRegistersKept {i : Instr} (hf : s.frames = f :: fs) (hx : exec i s = .next t) :
    HostRegistersKept s t := by
  obtain ⟨htx, hblock, hparams, -, -, hresult, hfailure, -⟩ := instructionFrame i s t f fs hf hx
  exact ⟨htx, hblock, hparams, fun _ => ⟨hresult, hfailure⟩⟩

theorem returnTransition_hostRegistersKept (hx : returnTransition s o k p fs = .next t) : HostRegistersKept s t := by
  obtain ⟨outOff, outSize, -, hcall⟩ | ⟨N, v, -, hcreate⟩ := returnTransition_next hx
  · obtain ⟨-, -, rfl⟩ := callReturn_next hcall
    cases o <;> exact ⟨rfl, rfl, rfl, fun _ => ⟨rfl, rfl⟩⟩
  · cases o <;> cases hcreate <;> exact ⟨rfl, rfl, rfl, fun _ => ⟨rfl, rfl⟩⟩

/-- R325: the end of a run changes the run status. -/
theorem finish_hostRegistersKept (hr : s.runStatus = .running) : HostRegistersKept s (finish s o f) := by
  have hdone : (finish s o f).runStatus ≠ s.runStatus := by rw [hr]; cases o <;> nofun
  cases o <;> exact ⟨rfl, rfl, rfl, fun h => absurd h hdone⟩

theorem step_hostRegistersKept (hx : step s = .next t) : HostRegistersKept s t := by
  cases step_cases hx with
  | stutter _ ht => exact ht ▸ ⟨rfl, rfl, rfl, fun _ => ⟨rfl, rfl⟩⟩
  | endOfCode f fs _ _ _ _ ht => exact ht ▸ ⟨rfl, rfl, rfl, fun _ => ⟨rfl, rfl⟩⟩
  | unknown f fs op s' _ _ _ _ hc ht =>
    exact countFetch_hostRegistersKept hc (ht ▸ ⟨rfl, rfl, rfl, fun _ => ⟨rfl, rfl⟩⟩)
  | executed f fs i rest s' _ hf _ _ hc _ hx =>
    exact countFetch_hostRegistersKept hc (exec_hostRegistersKept ((countFetch_frames hc).trans hf) hx)
  | returned k p fs o _ _ _ hx => exact returnTransition_hostRegistersKept hx
  | ended f o hr _ _ ht => exact ht ▸ finish_hostRegistersKept hr

/-- R389: before the end of a run there is no Result to read. -/
theorem readResult_eq_none (h : s.runStatus ≠ .done) : readResult s = none := by
  unfold readResult
  split
  · exact absurd ‹_› h
  · rfl

/-- R387: START needs the run status Idle. -/
theorem start_eq_none (h : s.runStatus ≠ .idle) : start s = none := if_neg fun hidle => h hidle.1

/-- Settles O60: the cases of a step for the core, and for the host the test that each of its operations makes. -/
theorem hostAndCore : Obligations.HostAndCore := by
  unfold Obligations.HostAndCore
  refine ⟨fun s t hx => step_hostRegistersKept hx, fun s hr => step_of_not_running hr, fun s => rfl,
    fun inputs s hr => ?_, fun s r hr hres => ?_, fun s hr => readResult_eq_none hr⟩
  · have hload : load inputs s = none := load_eq_none (.inl hr)
    have hlaunch : launch inputs s = none := by rw [launch, hload]; rfl
    exact ⟨hload, start_eq_none (by rw [hr]; nofun), hlaunch, readResult_eq_none (by rw [hr]; nofun)⟩
  · rw [readResult, hr, hres]

end Sys2Proof.Machine
end
